-- ==== Sys2Proof/Word.lean ====
section
/-! DEFINITION. The words of the part: bytes of the store bus, 32-bit Timebase stamps, die positions, and
pages as lists of (column, byte) cells. -/

namespace Sys2Proof

/-- A byte of the store bus. -/
abbrev Byte := BitVec 8

/-- A Timebase stamp, and any other number the manual keeps in 32 wrapping bits (R1, R81, R151). -/
abbrev Tick := BitVec 32

/-- A die position, 0 to 3 (R64). -/
abbrev Die := Fin 4

/-- The 4224 bytes of a page, columns 0 to 4223: the cells that differ from 0xFF, in rising column order
(R29, R41: a buffer starts as 0xFF in every byte). -/
abbrev Page := List Host.Cell

end Sys2Proof
end

