-- ==== Sys2Proof/Syntax.lean ====
section
/-! DEFINITION. The commands of the part: one constructor per row of spec/opcode_table.json. An operand is
what the event brings from outside the part: the byte on the bus, the die whose transfer ends, the page and
the status byte a die gave, the level of QDIR, the lines' levels at power-on. -/

namespace Sys2Proof

/-- The levels the part finds on its lines at power-on (R80, R106, R129). -/
structure LineLevels where
  ffall : Bool
  fimp : Bool
  pkpres : Bool
  supgood : Bool
  rsvgood : Bool
  deriving DecidableEq, Repr

inductive Instr where
  | powerOn (levels : LineLevels)
  | startUpSettleEnd
  | read
  | program
  | erase
  | status
  | reset
  | unknownOperationByte (byte : Byte)
  | addressByte (byte : Byte)
  | dataByte (byte : Byte)
  | readStrobe
  | endStrobe
  | commandTransferEnd (die : Die)
  | mrdySeenHigh (die : Die)
  | readoutEnd (die : Die) (page : Page)
  | mediaOperationComplete (die : Die) (status : Byte)
  | dieTimeout (die : Die)
  | ffallRise
  | ffallFall
  | fimpRise
  | fimpFall
  | mergeTimerExpiry
  | settleTimerExpiry
  | ceilingTimerExpiry
  | qpulseRise (qdir : Bool)
  | tfreqRise
  | gateEnd
  | minuteBoundary
  | chgdoneRise
  | pkemptyRise
  | pkpresFall
  | pkpresRise
  | supgoodFall
  | supgoodRise
  | rsvgoodFall
  | rsvgoodRise
  | lrst
  | tick
  deriving DecidableEq, Repr

end Sys2Proof
end

