-- ==== Sys2Proof/WellFormed.lean ====
section
/-! DEFINITION. What a well-formed page and a well-formed command are. -/

namespace Sys2Proof

/-- The cells have rising columns from `least` on, below 4224, and none equals the 0xFF that an unlisted
column reads as. -/
def Page.wfFrom : Nat → Page → Bool
  | _, [] => true
  | least, (column, byte) :: rest =>
    decide (least ≤ column) && decide (column < 4224) && decide (byte ≠ 0xFF#8) && Page.wfFrom (column + 1) rest

/-- The canonical form of a page. -/
def Page.wf (page : Page) : Bool := Page.wfFrom 0 page

/-- The five operation bytes (10_formats.md 10.1). -/
def namesOperation (byte : Byte) : Bool :=
  byte == 0x1B#8 || byte == 0x5C#8 || byte == 0x6D#8 || byte == 0x71#8 || byte == 0xF3#8

/-- The checks on a command's operands: an unknown operation byte names none of the five operations (R19),
and the page a die gives is in canonical form. -/
def Instr.wf : Instr → Bool
  | .powerOn _ => true
  | .startUpSettleEnd => true
  | .read => true
  | .program => true
  | .erase => true
  | .status => true
  | .reset => true
  | .unknownOperationByte byte => !namesOperation byte
  | .addressByte _ => true
  | .dataByte _ => true
  | .readStrobe => true
  | .endStrobe => true
  | .commandTransferEnd _ => true
  | .mrdySeenHigh _ => true
  | .readoutEnd _ page => Page.wf page
  | .mediaOperationComplete _ _ => true
  | .dieTimeout _ => true
  | .ffallRise => true
  | .ffallFall => true
  | .fimpRise => true
  | .fimpFall => true
  | .mergeTimerExpiry => true
  | .settleTimerExpiry => true
  | .ceilingTimerExpiry => true
  | .qpulseRise _ => true
  | .tfreqRise => true
  | .gateEnd => true
  | .minuteBoundary => true
  | .chgdoneRise => true
  | .pkemptyRise => true
  | .pkpresFall => true
  | .pkpresRise => true
  | .supgoodFall => true
  | .supgoodRise => true
  | .rsvgoodFall => true
  | .rsvgoodRise => true
  | .lrst => true
  | .tick => true

end Sys2Proof
end

