-- ==== Sys2Proof/Decode.lean ====
section
/-! DEFINITION. The five operation bytes (10_formats.md 10.1) and the command each is on the front. No row of
spec/opcode_table.json gives bits; the words that spell a command are the five bytes of 10.1 (log entry 1). -/

namespace Sys2Proof

/-- The operations a byte can name (R19). -/
inductive StoreOperation where
  | read | program | erase | status | reset
  deriving DecidableEq, Repr

/-- The value of an operation byte, the same on both sides of the store bus (R185). -/
def StoreOperation.byte : StoreOperation → Byte
  | .read => 0x1B#8
  | .program => 0x5C#8
  | .erase => 0x6D#8
  | .status => 0x71#8
  | .reset => 0xF3#8

/-- The operation a byte names, if any (R19). -/
def operationOf (byte : Byte) : Option StoreOperation :=
  [StoreOperation.read, .program, .erase, .status, .reset].find? (fun op => op.byte == byte)

/-- The command an operation byte is on the front. -/
def StoreOperation.command : StoreOperation → Instr
  | .read => .read
  | .program => .program
  | .erase => .erase
  | .status => .status
  | .reset => .reset

/-- The command that an operation byte of any value is on the front (R19, R185). -/
def frontCommand (byte : Byte) : Instr :=
  match operationOf byte with
  | some op => op.command
  | none => .unknownOperationByte byte

/-- The command a word spells: a word of 8 bits is an operation byte (R19, R185). Any other word, and a byte that names no
operation, spells none: 10_formats.md gives values to no other strobe. -/
def decodeTableWord (nbits w : Nat) : Option Instr :=
  if nbits = 8 ∧ w < 256 then (operationOf (BitVec.ofNat 8 w)).map StoreOperation.command else none

end Sys2Proof
end

