-- ==== Sys2Proof/Config.lean ====
section
/-! DEFINITION. What the manual leaves open, as constants without a body. -/

namespace Sys2Proof

/-- The bytes of a report or note that have bits no field takes. -/
inductive UnusedSite where
  | summaryFlags
  | startMarks
  | dropMarks
  | batteryMarks
  | commitFailMarks
  | dieOfflineMarks
  | profileMarks
  | refusalMarks
  | sensorMarks
  | noteFlags
  deriving DecidableEq, Repr

/-- The value of the bits that no field of the byte takes, or that belong to an absent field (10_formats.md gives them
none; log entry 9). -/
opaque Config.unusedBits : UnusedSite → Byte

/-- The choice taken where several requests could be served, or several waiting requests fail, in one event
and the manual gives no order (log entry 8). Applied to `State.free`. -/
opaque Config.freePick : Nat → Nat

end Sys2Proof
end

