-- ==== Sys2Proof/Machine/Types.lean ====
section
/-! DEFINITION. The kinds of state the manual gives each block, as plain data. -/

namespace Sys2Proof.Machine

/-! ### Names -/

/-- R168. -/
inductive ServiceState where
  | starting | service | lineReset | flushing | spent
  deriving DecidableEq, Repr

/-- R81. -/
inductive DropState where
  | calm | falling | settling
  deriving DecidableEq, Repr

/-- The front operations that have an address phase (R19). -/
inductive OpKind where
  | read | program | erase
  deriving DecidableEq, Repr

/-- The causes of refusal (R25, R26). -/
inductive RefusalCause where
  | sequence | qualifier | address | closed | service | state
  deriving DecidableEq, Repr

/-- The causes that produce REFUSAL records (R154). -/
inductive RecordedCause where
  | address | closed | service
  deriving DecidableEq, Repr

/-- How the drive controller addressed an operation (R7, R40). -/
inductive Origin where
  | window (number : Nat)
  | absolute
  deriving DecidableEq, Repr

/-- The path of a translated operation, with the physical row or the report page it carries (R7). -/
inductive Path where
  | snoop (row : Nat)
  | queue (row : Nat)
  | profile (row : Nat)
  | report (page : Nat)
  deriving DecidableEq, Repr

/-- A translated operation (R7). -/
structure Translated where
  kind : OpKind
  path : Path
  column : Nat
  origin : Origin
  holdEligible : Bool
  profileFlag : Bool
  through : Bool
  deriving DecidableEq, Repr

/-! ### Timers and dies -/

/-- A timer: stopped, or running with the ticks passed since it was started and its interval in ticks
(00_scope.md 5.2). -/
inductive Timer where
  | stopped
  | running (elapsed interval : Nat)
  deriving DecidableEq, Repr

/-- One value for each die position 0 to 3. -/
structure PerDie (α : Type) where
  die0 : α
  die1 : α
  die2 : α
  die3 : α
  deriving DecidableEq, Repr

/-! ### Front Port (chapter 2) -/

/-- The front state (R21) with what each state holds. In DELIVERING: the bytes still to come. In RECEIVING:
the column the next data byte takes. -/
inductive FrontState where
  | idle
  | addressing (kind : OpKind) (taken : List Byte)
  | loading (row column : Nat)
  | delivering (rest : List Byte)
  | receiving (op : Translated) (next : Nat)
  | awaiting
  deriving DecidableEq, Repr

/-- R26: 16-bit saturating counters. -/
structure RefusalCounters where
  sequence : Nat
  qualifier : Nat
  address : Nat
  closed : Nat
  service : Nat
  state : Nat
  deriving DecidableEq, Repr

structure FrontPort where
  state : FrontState
  fail : Bool
  refused : Bool
  posted : Bool
  counters : RefusalCounters
  statusSelected : Bool
  /-- The front data lines at the last read strobe; none where they were not driven (R37). -/
  dataOut : Option Byte
  deriving DecidableEq, Repr

/-! ### Window table and settings (chapters 1 and 9) -/

/-- A configurable entry (R3). -/
structure Window where
  enabled : Bool
  base : Nat
  extent : Nat
  holdEligible : Bool
  closed : Bool
  deriving DecidableEq, Repr

/-- A point of the derate table (R115). -/
structure DeratePoint where
  temperature : Int
  factor : Nat
  deriving DecidableEq, Repr

structure DerateTable where
  p1 : DeratePoint
  p2 : DeratePoint
  p3 : DeratePoint
  p4 : DeratePoint
  deriving DecidableEq, Repr

/-- The live settings (R174), durations as the profile gives them. -/
structure Settings where
  serviceAccess : Bool
  knockHold : Bool
  patience : Nat
  dieTimeoutMs : Nat
  mergeMs : Nat
  settleMs : Nat
  ceilingMs : Nat
  latency : Nat
  mask : BitVec 16
  weight : Nat
  nominal : Nat
  low : Nat
  critical : Nat
  zeroCount : Nat
  perDegree : Nat
  derate : DerateTable
  interval : Nat
  windows : List Window
  deriving DecidableEq, Repr

/-- A profile record as decoded (10_formats.md 10.3). -/
structure ProfileImage where
  generation : Nat
  installed : Nat
  rres : Nat
  live : Settings
  deriving DecidableEq, Repr

/-! ### Hold Queue (chapter 3) -/

inductive WriteKind where
  | program | erase
  deriving DecidableEq, Repr

inductive Attachment where
  | attached | detached
  deriving DecidableEq, Repr

inductive Disposition where
  | posted
  | awaiting (attachment : Attachment)
  deriving DecidableEq, Repr

inductive Progress where
  | waiting | committing
  deriving DecidableEq, Repr

/-- An entry (R40). The image of an ERASE is empty. -/
structure Entry where
  kind : WriteKind
  row : Nat
  disposition : Disposition
  dropTag : Option Tick
  origin : Origin
  profileFlag : Bool
  image : Page
  progress : Progress
  acceptTick : Tick
  deriving DecidableEq, Repr

/-- A record of the failed-row table (R57): a block, or one page of it. -/
structure FailedRow where
  block : Nat
  page : Option Nat
  deriving DecidableEq, Repr

structure HoldQueue where
  /-- Acceptance order, oldest first (R42). -/
  entries : List Entry
  /-- The page buffer of the reserved slot (R41). -/
  reserved : Option Page
  /-- Oldest first (R57). -/
  failedRows : List FailedRow
  deriving DecidableEq, Repr

/-! ### Die Scheduler (chapter 4) -/

inductive MediaKind where
  | read | program | erase | reset
  deriving DecidableEq, Repr

/-- Why a media operation failed (R51, R73, R75). -/
inductive FailCause where
  | media | timeout | offline
  deriving DecidableEq, Repr

/-- The service operations (R66). -/
inductive ServiceOp where
  | probe (die : Die)
  | profileRead (page : Nat)
  | noteRead (page : Nat)
  | noteErase
  | openedNote
  | flushNote (image : Page)
  deriving DecidableEq, Repr

/-- What the Service Controller does with a result: its sequence awaits it, only the note state takes it
(R148), or it is disregarded (R132, R133). -/
inductive Standing where
  | awaited | noteOnly | disregarded
  deriving DecidableEq, Repr

structure ServiceRequest where
  op : ServiceOp
  standing : Standing
  deriving DecidableEq, Repr

inductive Requester where
  | front (abandoned : Bool)
  | commit
  | service (request : ServiceRequest)
  deriving DecidableEq, Repr

/-- The phase of a media operation (R65). -/
inductive Phase where
  | command
  | busy (start : Tick) (timeoutMs elapsed : Nat)
  | readout
  | status (data : Page)
  deriving DecidableEq, Repr

/-- A media operation in progress at a die. The row is absent for a RESET; the image is what a PROGRAM sends. -/
structure MediaOp where
  kind : MediaKind
  row : Option Nat
  image : Page
  requester : Requester
  phase : Phase
  deriving DecidableEq, Repr

/-- R64. -/
inductive DieState where
  | idle
  | busy (op : MediaOp)
  | offline
  deriving DecidableEq, Repr

structure DieRecord where
  state : DieState
  patience : Nat
  deriving DecidableEq, Repr

structure Scheduler where
  dies : PerDie DieRecord
  /-- The die whose transfer has the shared lines, then the dies whose transfers wait for them (R65). -/
  lines : List Die
  /-- The physical row of the waiting front read (R66). -/
  frontRead : Option Nat
  /-- The waiting service operations, in the order made (R66). -/
  services : List ServiceRequest
  mediaFailures : Nat
  deriving DecidableEq, Repr

/-! ### Drop Monitor (chapter 5) -/

inductive DropKind where
  | fall | catch_ | knock | multiple
  deriving DecidableEq, Repr

inductive DropCondition where
  | opened
  | closed (tick : Tick)
  deriving DecidableEq, Repr

structure Onset where
  start : Tick
  stop : Option Tick
  deriving DecidableEq, Repr

/-- The fall span in ticks and the height in millimetres, taken together (R95, R96). -/
structure FallMeasure where
  span : Nat
  height : Nat
  deriving DecidableEq, Repr

/-- A drop of the pending table (R97, R101). -/
structure Drop where
  number : Tick
  kind : DropKind
  condition : DropCondition
  openTick : Tick
  onsets : List Onset
  measure : Option FallMeasure
  onsetCount : Nat
  airborne : Nat
  falls : Nat
  impacts : Nat
  longestWidth : Option Nat
  postedHeld : Nat
  awaitingHeld : Nat
  failed : Nat
  outstanding : Nat
  ceilingMark : Bool
  powerDip : Bool
  deriving DecidableEq, Repr

/-- The parameters latched at a departure from CALM (R82). -/
structure DropParams where
  settleMs : Nat
  ceilingMs : Nat
  mergeMs : Nat
  latency : Nat
  deriving DecidableEq, Repr

structure DropMonitor where
  state : DropState
  /-- The tick of the ceiling expiry that began the suspension in force (R93, R102). -/
  suspended : Option Tick
  /-- The stamp of FFALL's last rise (R102). -/
  ffallSince : Option Tick
  mergeTimer : Timer
  settleTimer : Timer
  ceilingTimer : Timer
  latched : Option DropParams
  /-- Oldest first (R97). -/
  pending : List Drop
  counter : Tick
  loaded : Bool
  total : Tick
  openOnset : Option Tick
  impactStart : Option Tick
  deriving DecidableEq, Repr

/-! ### Charge Gauge (chapter 6) -/

inductive GaugeState where
  | unknown | valid
  deriving DecidableEq, Repr

inductive Level where
  | unknown | normal | low | critical
  deriving DecidableEq, Repr

/-- The values a gauge period computes (R114 to R119). -/
structure Derived where
  factor : Nat
  usable : Nat
  remaining : Option Nat
  soc : Option Nat
  level : Level
  minutes : Option Nat
  deriving DecidableEq, Repr

/-- The edges held during STARTING (R111). -/
inductive HeldEdge where
  | chgdone | pkempty | pkpresFall | pkpresRise
  deriving DecidableEq, Repr

structure Gauge where
  nominalCu : Nat
  learned : Nat
  remaining : Nat
  state : GaugeState
  anchor : Bool
  drawn : Nat
  temperature : Int
  firstReading : Bool
  stale : Bool
  outOfRange : Bool
  gateCount : Nat
  gateTicks : Nat
  gates : Nat
  /-- The minute boundary that ends with the present gate has been taken (the model's own; log entry 20). -/
  boundaryTaken : Bool
  net : Int
  buckets : List Int
  derived : Derived
  changePending : Bool
  periods : Nat
  rawDischarge : Nat
  rawCharge : Nat
  tallying : Bool
  holding : Bool
  held : List HeldEdge
  seated : Bool
  weight : Nat
  deriving DecidableEq, Repr

/-! ### Records (chapter 8) -/

inductive StartCause where
  | powerOnClean | powerOnUnclean | powerOnNoNote | lineReset | dipRecovery
  deriving DecidableEq, Repr

inductive FlushNoteOutcome where
  | written | failed | skipped
  deriving DecidableEq, Repr

structure FlushCounts where
  committed : Nat
  failed : Nat
  lost : Nat
  deriving DecidableEq, Repr

structure RowsLoaded where
  count : Nat
  overflow : Bool
  deriving DecidableEq, Repr

structure LineResetCounts where
  committed : Nat
  failed : Nat
  withdrawn : Bool
  deriving DecidableEq, Repr

/-- R147, R180. -/
structure StartRecord where
  cause : StartCause
  notePage : Option Nat
  counts : Option FlushCounts
  flushNote : Option FlushNoteOutcome
  rows : Option RowsLoaded
  drained : Option LineResetCounts
  answering : PerDie Bool
  noteFault : Bool
  eventTick : Option Tick
  deriving DecidableEq, Repr

/-- R101. -/
structure DropRecord where
  number : Tick
  kind : DropKind
  openTick : Tick
  closeTick : Tick
  measure : Option FallMeasure
  onsetCount : Nat
  airborne : Nat
  falls : Nat
  impacts : Nat
  longestWidth : Option Nat
  postedHeld : Nat
  awaitingHeld : Nat
  failed : Nat
  ceilingMark : Bool
  powerDip : Bool
  deriving DecidableEq, Repr

inductive BatteryReason where
  | periodic | level | state | learned | packOut | packIn
  deriving DecidableEq, Repr

/-- R126. -/
structure BatteryRecord where
  reason : BatteryReason
  state : GaugeState
  level : Level
  soc : Option Nat
  remainingMah : Option Nat
  learnedMah : Nat
  temperature : Int
  stale : Bool
  outOfRange : Bool
  minutes : Option Nat
  factor : Nat
  deriving DecidableEq, Repr

inductive CommitFailCause where
  | media | timeout | offline | lost
  deriving DecidableEq, Repr

/-- R52. -/
structure CommitFailRecord where
  kind : WriteKind
  block : Nat
  page : Option Nat
  cause : CommitFailCause
  awaiting : Bool
  origin : Origin
  dropTag : Option Tick
  acceptTick : Tick
  overflow : Bool
  deriving DecidableEq, Repr

inductive OfflineCause where
  | timeout | noAnswer
  deriving DecidableEq, Repr

inductive RequesterName where
  | front | commit | service
  deriving DecidableEq, Repr

/-- R76. -/
structure DieOfflineRecord where
  die : Die
  cause : OfflineCause
  operation : MediaKind
  requester : RequesterName
  block : Option Nat
  page : Option Nat
  busyStart : Tick
  timeoutMs : Nat
  deriving DecidableEq, Repr

inductive ApplySource where
  | startUp | lineReset | service
  deriving DecidableEq, Repr

inductive ApplyOutcome where
  | applied | partly | rejected | defaults | notRead
  deriving DecidableEq, Repr

inductive RejectReason where
  | check | table
  deriving DecidableEq, Repr

/-- R179. -/
structure ProfileRecord where
  source : ApplySource
  outcome : ApplyOutcome
  page : Option Nat
  generation : Option Nat
  /-- The numbers of the windows rejected, ascending. -/
  rejection : List Nat
  reason : Option RejectReason
  clamped : Bool
  pending : Bool
  pagesFailed : Option Nat
  deriving DecidableEq, Repr

/-- R155. -/
structure RefusalRecord where
  cause : RecordedCause
  firstOp : OpKind
  firstRow : BitVec 24
  firstAbsolute : Bool
  lastOp : OpKind
  lastRow : BitVec 24
  lastTick : Tick
  deriving DecidableEq, Repr

/-- R102. -/
inductive SensorRecord where
  | suspended (drop : Tick) (highSince : Option Tick) (ceilingMs : Nat)
  | resumed (since : Tick)
  deriving DecidableEq, Repr

/-- The kind and payload of a record (R151). -/
inductive Payload where
  | start (record : StartRecord)
  | drop (record : DropRecord)
  | battery (record : BatteryRecord)
  | commitFail (record : CommitFailRecord)
  | dieOffline (record : DieOfflineRecord)
  | profile (record : ProfileRecord)
  | refusal (record : RefusalRecord)
  | sensor (record : SensorRecord)
  deriving DecidableEq, Repr

/-- R151. -/
structure Record where
  number : Tick
  count : Nat
  stamp : Tick
  payload : Payload
  deriving DecidableEq, Repr

/-- The coalescing slots (R154). -/
structure Slots where
  address : Option Tick
  closed : Option Tick
  service : Option Tick
  deriving DecidableEq, Repr

structure ReportMemory where
  /-- Oldest first (R151). -/
  ring : List Record
  next : Tick
  loaded : Bool
  slots : Slots
  /-- ATTN is still masked after power-on (R163). -/
  masked : Bool
  attn : Bool
  /-- The page image of a consumption write in RECEIVING (R156). -/
  consumption : Option Page
  deriving DecidableEq, Repr

/-! ### Service Controller (chapters 7 and 9) -/

/-- What START record a start-up ends with (R177, R180). -/
structure StartInfo where
  cause : StartCause
  notePage : Option Nat
  counts : Option FlushCounts
  rows : Option RowsLoaded
  deriving DecidableEq, Repr

/-- For what an OPENED note is written, and so what follows it (R170, R145). -/
inductive Opening where
  | startUp (info : StartInfo)
  | dipRecovery
  deriving DecidableEq, Repr

/-- Which scan of the profile block (R172). -/
inductive ScanFor where
  | startUp | lineReset
  deriving DecidableEq, Repr

/-- The step at which the Service Controller's running sequence stands (R170, R183, R137, R145). -/
inductive Sequence where
  /-- No sequence runs. -/
  | none
  /-- The start-up settle interval, with the ticks passed (R169). -/
  | settling (elapsed : Nat)
  /-- Start-up step 1. -/
  | probeDieZero
  /-- The page being read, the highest page that passed, and the pages above it that failed (R172). -/
  | profileScan (purpose : ScanFor) (page : Nat) (best : Option (Nat × Page)) (failed : Nat)
  /-- Start-up step 4: the dies still to be probed after the one under probe. -/
  | probeAdded (rest : List Die)
  /-- Start-up step 5 (R176). -/
  | noteScan (page : Nat) (best : Option (Nat × Page))
  | openedErase (opening : Opening)
  | openedProgram (opening : Opening)
  /-- Line reset: the dies still to be probed after the one under probe (R182). -/
  | lineProbe (rest : List Die)
  /-- Line reset: the probes are done, the queue may still hold entries (R183). -/
  | lineWait
  /-- Flush: the drain (R137). -/
  | drain
  /-- Flush: the FLUSH note has been requested (R141). -/
  | flushNote
  deriving DecidableEq, Repr

structure Controller where
  state : ServiceState
  sequence : Sequence
  budget : Nat
  counts : FlushCounts
  flushNote : Option FlushNoteOutcome
  rowOverflow : Bool
  noteUsable : Bool
  /-- The next note page, 0 to 128; none while it is unknown (R140, R169). -/
  nextNotePage : Option Nat
  installed : Nat
  rres : Nat
  settings : Settings
  profilePage : Option Nat
  startUpPending : Bool
  lineReset : LineResetCounts
  lrstTick : Tick
  dipStart : Tick
  deriving DecidableEq, Repr

end Sys2Proof.Machine
end

