-- ==== Sys2Proof/Machine/PowerOn.lean ====
section
/-! DEFINITION. The value each block takes at power-on, and the default settings. -/

namespace Sys2Proof.Machine

/-- Window 0 of the default table (R4). -/
def defaultWindowZero : Window :=
  { enabled := true, base := 2, extent := 8190, holdEligible := true, closed := false }

/-- Windows 1 to 13 of the default table (R4). -/
def defaultWindowOther : Window :=
  { enabled := false, base := 0, extent := 1, holdEligible := false, closed := false }

def defaultWindows : List Window := defaultWindowZero :: List.replicate 13 defaultWindowOther

/-- R123. -/
def defaultDerate : DerateTable :=
  { p1 := ⟨-20, 150⟩, p2 := ⟨0, 205⟩, p3 := ⟨25, 256⟩, p4 := ⟨60, 256⟩ }

/-- The default settings: R4, R82 (drop), R123 (gauge), R73 (die timeout), R69 (patience), R187 (mask). -/
def defaultSettings : Settings :=
  { serviceAccess := false, knockHold := true, patience := 4, dieTimeoutMs := 50, mergeMs := 20
    settleMs := 250, ceilingMs := 4000, latency := 0, mask := 0x00B9#16, weight := 1600, nominal := 6800
    low := 15, critical := 5, zeroCount := 10000, perDegree := 40, derate := defaultDerate, interval := 60
    windows := defaultWindows }

/-- The default start-up fields: installed count 1 and R_res 40 (R175). -/
def defaultInstalled : Nat := 1
def defaultRres : Nat := 40

/-- R21, R26, R32, R33, R36. -/
def FrontPort.powerOn : FrontPort :=
  { state := .idle, fail := false, refused := false, posted := false, counters := ⟨0, 0, 0, 0, 0, 0⟩
    statusSelected := false, dataOut := none }

/-- R56. -/
def HoldQueue.powerOn : HoldQueue := { entries := [], reserved := none, failedRows := [] }

/-- R64, R79. -/
def Scheduler.powerOn : Scheduler :=
  { dies := ⟨⟨.offline, 0⟩, ⟨.offline, 0⟩, ⟨.offline, 0⟩, ⟨.offline, 0⟩⟩
    lines := [], frontRead := none, services := [], mediaFailures := 0 }

/-- R81. -/
def DropMonitor.powerOn : DropMonitor :=
  { state := .calm, suspended := none, ffallSince := none, mergeTimer := .stopped, settleTimer := .stopped
    ceilingTimer := .stopped, latched := none, pending := [], counter := 0, loaded := false, total := 0
    openOnset := none, impactStart := none }

/-- R107. A pack seated at power-on is present without an edge (R106). -/
def Gauge.powerOn (seated : Bool) : Gauge :=
  { nominalCu := 108800000, learned := 108800000, remaining := 0, state := .unknown, anchor := false
    drawn := 0, temperature := -20, firstReading := false, stale := true, outOfRange := false
    gateCount := 0, gateTicks := 0, gates := 0, boundaryTaken := false, net := 0, buckets := []
    derived := { factor := 150, usable := 108800000 * 150 / 256, remaining := none, soc := none
                 level := .unknown, minutes := none }
    changePending := false, periods := 0, rawDischarge := 0, rawCharge := 0, tallying := true
    holding := true, held := [], seated := seated, weight := 1600 }

/-- R169, R150, R184. -/
def Controller.powerOn : Controller :=
  { state := .starting, sequence := .settling 0, budget := 0, counts := ⟨0, 0, 0⟩, flushNote := none
    rowOverflow := false, noteUsable := true, nextNotePage := none, installed := defaultInstalled
    rres := defaultRres, settings := defaultSettings, profilePage := none, startUpPending := false
    lineReset := ⟨0, 0, false⟩, lrstTick := 0, dipStart := 0 }

/-- R153, R154, R163, R166. -/
def ReportMemory.powerOn : ReportMemory :=
  { ring := [], next := 0, loaded := false, slots := ⟨none, none, none⟩, masked := true, attn := false
    consumption := none }

end Sys2Proof.Machine
end

