-- ==== Sys2Proof/Machine/State.lean ====
section
/-! DEFINITION. The machine's state, its reset, and the reasons a step can stop. -/

namespace Sys2Proof.Machine

structure State where
  /-- The Timebase (R1). -/
  tick : Tick
  /-- The levels of the input lines some rule reads as a level (R92, R106, R129). -/
  pins : LineLevels
  front : FrontPort
  queue : HoldQueue
  media : Scheduler
  drop : DropMonitor
  gauge : Gauge
  control : Controller
  report : ReportMemory
  /-- The number of open choices taken so far (the model's own; log entry 8). -/
  free : Nat
  /-- The commands that wait, first in, first out. -/
  pending : List Instr
  deriving DecidableEq, Repr

/-- The manual stops the part nowhere, so no fault exists: nobody raises one (safe: nothing is cut off). -/
inductive Fault where
  deriving DecidableEq, Repr

inductive Refusal where
  /-- Raised by an arm of `exec` whose command has no meaning yet; safe. No arm is such. -/
  | notModelled (mnemonic : String)
  deriving DecidableEq, Repr

/-- The state right after power-on with the given line levels (R169), and the given commands waiting. -/
def State.powerOn (levels : LineLevels) (free : Nat) (pending : List Instr) : State :=
  { tick := 0
    pins := levels
    front := FrontPort.powerOn, queue := HoldQueue.powerOn, media := Scheduler.powerOn
    drop := DropMonitor.powerOn, gauge := Gauge.powerOn levels.pkpres, control := Controller.powerOn
    report := ReportMemory.powerOn, free := free, pending := pending }

/-- Power-on with the motion lines low, a pack seated and the supply and reserve good (DESIGN CHOICE, log
entry 4), no command waiting. -/
def State.reset : State :=
  State.powerOn { ffall := false, fimp := false, pkpres := true, supgood := true, rsvgood := true } 0 []

end Sys2Proof.Machine
end

