-- ==== Sys2Proof/Machine/Ops.lean ====
section
/-! DEFINITION. The named operations over pages, numbers, timers and dies, and the one place each block of
State is updated. -/

namespace Sys2Proof.Machine

/-! ### Numbers -/

/-- A counter that stays at its largest value (00_scope.md 5.1). -/
def satAdd (largest a b : Nat) : Nat := min largest (a + b)

/-- Clamping to a range (00_scope.md 5.1). -/
def clampNat (least largest n : Nat) : Nat := max least (min largest n)

def clampInt (least largest n : Int) : Int := max least (min largest n)

/-- The `n` bytes of a number, least significant first (10_formats.md: inside a page). -/
def leBytes : Nat → Nat → List Byte
  | 0, _ => []
  | n + 1, v => BitVec.ofNat 8 v :: leBytes n (v / 256)

/-- A field shown saturated at its largest value (R189). -/
def narrow (largest n : Nat) : Nat := min largest n

/-! ### Pages -/

/-- The byte at a column: what is listed, else 0xFF. -/
def readCell : Page → Nat → Byte
  | [], _ => 0xFF#8
  | (column, byte) :: rest, c => if column = c then byte else readCell rest c

/-- Puts a byte into the list at its place; 0xFF is not listed. -/
def putCell : Page → Nat → Byte → Page
  | [], c, b => if b = 0xFF#8 then [] else [(c, b)]
  | (column, byte) :: rest, c, b =>
    if c < column then
      if b = 0xFF#8 then (column, byte) :: rest else (c, b) :: (column, byte) :: rest
    else if c = column then
      if b = 0xFF#8 then rest else (c, b) :: rest
    else (column, byte) :: putCell rest c b

/-- Writes a byte; a byte past column 4223 is discarded (R29). -/
def writePage (page : Page) (c : Nat) (b : Byte) : Page :=
  if c < 4224 then putCell page c b else page

/-- Writes consecutive bytes from a column on. -/
def writeBytes : Page → Nat → List Byte → Page
  | page, _, [] => page
  | page, c, b :: bs => writeBytes (writePage page c b) (c + 1) bs

/-- The canonical page of any list of cells; a later cell wins. -/
def normalizePage (cells : Page) : Page :=
  cells.foldl (fun page cell => writePage page cell.1 cell.2) []

/-- The bytewise AND of two pages (R61): a column the second does not list keeps the first's byte. -/
def andPage (page image : Page) : Page :=
  image.foldl (fun acc cell => writePage acc cell.1 (readCell acc cell.1 &&& cell.2)) page

/-- The `n` bytes from a column on. -/
def pageBytes (page : Page) : Nat → Nat → List Byte
  | _, 0 => []
  | c, n + 1 => readCell page c :: pageBytes page (c + 1) n

/-- A field of `n` bytes at a column, least significant byte first. -/
def readField (page : Page) : Nat → Nat → Nat
  | _, 0 => 0
  | c, n + 1 => (readCell page c).toNat + 256 * readField page (c + 1) n

/-- The sum of `n` little-endian words from a column on. -/
def sumWords (page : Page) : Nat → Nat → Nat
  | _, 0 => 0
  | c, n + 1 => readField page c 2 + sumWords page (c + 2) n

/-- The word sum of the first `n` words of a page, as R186 defines it. R186 says in passing that a page of all 0xFF has a
word sum of 0; by its definition the sum is 65,472 over 64 words and 65,487 over 49, and the model follows the definition
(log entry 29). -/
def wordSum (page : Page) (n : Nat) : Nat := sumWords page 0 n % 65536

/-! ### Timers -/

/-- A timer of an interval in milliseconds starts (10 ticks per millisecond, 00_scope.md 5.2). -/
def Timer.startMs (ms : Nat) : Timer := .running 0 (ms * 10)

/-- A tick passes. -/
def Timer.advance : Timer → Timer
  | .stopped => .stopped
  | .running elapsed interval => .running (elapsed + 1) interval

/-- The interval has passed; a stopped timer does not expire (00_scope.md 5.2). -/
def Timer.due : Timer → Bool
  | .stopped => false
  | .running elapsed interval => decide (interval ≤ elapsed)

/-! ### Dies -/

def PerDie.get {α : Type} (v : PerDie α) : Die → α
  | 0 => v.die0
  | 1 => v.die1
  | 2 => v.die2
  | 3 => v.die3

def PerDie.set {α : Type} (v : PerDie α) (d : Die) (x : α) : PerDie α :=
  match d with
  | 0 => { v with die0 := x }
  | 1 => { v with die1 := x }
  | 2 => { v with die2 := x }
  | 3 => { v with die3 := x }

def PerDie.map {α β : Type} (f : α → β) (v : PerDie α) : PerDie β :=
  ⟨f v.die0, f v.die1, f v.die2, f v.die3⟩

/-- The die positions in ascending number. -/
def allDies : List Die := [0, 1, 2, 3]

/-- The die of a physical row (R2): physical block ÷ 8192. -/
def dieOfRow (row : Nat) : Nat := row / 128 / 8192

/-- The row lies on this die. -/
def rowOnDie (d : Die) (row : Nat) : Bool := dieOfRow row == d.val

/-! ### Blocks of State -/

def State.withTick (s : State) (t : Tick) : State := { s with tick := t }
def State.withPins (s : State) (p : LineLevels) : State := { s with pins := p }
def State.withFront (s : State) (f : FrontPort) : State := { s with front := f }
def State.withQueue (s : State) (q : HoldQueue) : State := { s with queue := q }
def State.withMedia (s : State) (m : Scheduler) : State := { s with media := m }
def State.withDrop (s : State) (d : DropMonitor) : State := { s with drop := d }
def State.withGauge (s : State) (g : Gauge) : State := { s with gauge := g }
def State.withControl (s : State) (c : Controller) : State := { s with control := c }
def State.withReport (s : State) (r : ReportMemory) : State := { s with report := r }
def State.withFree (s : State) (n : Nat) : State := { s with free := n }
def State.withPending (s : State) (l : List Instr) : State := { s with pending := l }

/-- Sets the front state alone. -/
def State.withFrontState (s : State) (f : FrontState) : State :=
  s.withFront { s.front with state := f }

/-- Sets the sequence's step alone. -/
def State.withSequence (s : State) (q : Sequence) : State :=
  s.withControl { s.control with sequence := q }

/-- Sets the service state alone. -/
def State.withServiceState (s : State) (v : ServiceState) : State :=
  s.withControl { s.control with state := v }

/-- Sets one die's state, keeping its patience counter. -/
def State.withDie (s : State) (d : Die) (v : DieState) : State :=
  s.withMedia { s.media with dies := s.media.dies.set d { s.media.dies.get d with state := v } }

/-- Sets one die's patience counter. -/
def State.withPatience (s : State) (d : Die) (n : Nat) : State :=
  s.withMedia { s.media with dies := s.media.dies.set d { s.media.dies.get d with patience := n } }

/-- The state of a die. -/
def State.die (s : State) (d : Die) : DieState := (s.media.dies.get d).state

end Sys2Proof.Machine
end

