-- ==== Sys2Proof/Machine/Operands.lean ====
section
/-! DEFINITION. The address phase: how five address bytes form a row, a column and the qualifiers (R19, R20),
and how the Translator screens and translates them (chapter 1). -/

namespace Sys2Proof.Machine

/-- What the address bytes carry (R19, R20). -/
structure Address where
  row : BitVec 24
  absolute : Bool
  through : Bool
  reserved : Bool
  column : Nat
  deriving DecidableEq, Repr

/-- Row bytes then column bytes, each most significant first (R19); the top three column bits are the
qualifiers (R20). -/
def addressOf (row2 row1 row0 column1 column0 : Byte) : Address :=
  let column := column1 ++ column0
  { row := row2 ++ row1 ++ row0
    absolute := column.getLsbD 15
    through := column.getLsbD 14
    reserved := column.getLsbD 13
    column := (column.extractLsb' 0 13).toNat }

/-- R2. -/
def windowOf (row : Nat) : Nat := row / 1048576
def offsetOf (row : Nat) : Nat := row % 1048576

/-- R2: the physical row of an offset into a window with this base block. -/
def physicalRow (base offset : Nat) : Nat := (base + offset / 128) * 128 + offset % 128

/-- R2: an ERASE hands on the first row of the block. -/
def firstRowOfBlock (row : Nat) : Nat := row / 128 * 128

/-- The row an operation of this kind hands on. -/
def rowFor (kind : OpKind) (row : Nat) : Nat :=
  match kind with
  | .erase => firstRowOfBlock row
  | .read => row
  | .program => row

def OpKind.isWrite : OpKind → Bool
  | .read => false
  | .program => true
  | .erase => true

/-- The block lies in the range of an enabled entry (R3). -/
def Window.covers (w : Window) (block : Nat) : Bool :=
  w.enabled && decide (w.base ≤ block) && decide (block < w.base + w.extent)

/-- A refusal with its cause, or a translated operation (R7). -/
inductive Screened where
  | refused (cause : RefusalCause)
  | passed (op : Translated)
  deriving DecidableEq, Repr

/-- Where a media row of the QUEUE path goes for each kind (R14, R15). -/
def surveyPath (kind : OpKind) (row : Nat) : Path :=
  match kind with
  | .read => .snoop row
  | .program => .queue row
  | .erase => .queue (firstRowOfBlock row)

/-- The row checks and translation with ABSOLUTE (R11, R15). -/
def translateAbsolute (settings : Settings) (installed : Nat) (kind : OpKind) (a : Address) : Screened :=
  let row := a.row.toNat
  let block := row / 128
  let around := settings.windows.filter (fun w => w.covers block)
  if 4194304 ≤ row || installed * 8192 ≤ block || block == 0 || block == 1 then .refused .address
  else if kind.isWrite && around.any (fun w => w.closed) then .refused .closed
  else .passed { kind := kind, path := surveyPath kind row, column := a.column, origin := .absolute
                 holdEligible := around.any (fun w => w.holdEligible), profileFlag := false
                 through := a.through }

/-- The report window: page 1 takes programs, no page takes an erase (R9, R14, R17). -/
def translateReport (kind : OpKind) (a : Address) (offset : Nat) : Screened :=
  let passed : Screened :=
    .passed { kind := kind, path := .report offset, column := a.column, origin := .window 14
              holdEligible := false, profileFlag := false, through := a.through }
  if 128 ≤ offset then .refused .address
  else
    match kind with
    | .read => passed
    | .program => if offset = 1 then passed else .refused .address
    | .erase => .refused .address

/-- The profile window, over physical block 0 (R9, R14, R16). -/
def translateProfile (kind : OpKind) (a : Address) (offset : Nat) : Screened :=
  if 128 ≤ offset then .refused .address
  else
    .passed { kind := kind
              path := match kind with
                | .read => .snoop offset
                | .program => .profile offset
                | .erase => .profile 0
              column := a.column, origin := .window 15, holdEligible := false
              profileFlag := kind.isWrite, through := a.through }

/-- A configurable window (R9, R10, R14, R15). -/
def translateSurvey (kind : OpKind) (a : Address) (number offset : Nat) (w : Window) : Screened :=
  if !w.enabled then .refused .address
  else if w.extent ≤ offset / 128 then .refused .address
  else if kind.isWrite && w.closed then .refused .closed
  else .passed { kind := kind, path := surveyPath kind (physicalRow w.base offset), column := a.column
                 origin := .window number, holdEligible := w.holdEligible, profileFlag := false
                 through := a.through }

/-- The window checks of an operation without ABSOLUTE (R9). -/
def translateWindowed (settings : Settings) (kind : OpKind) (a : Address) : Screened :=
  let number := windowOf a.row.toNat
  let offset := offsetOf a.row.toNat
  if number = 14 then translateReport kind a offset
  else if number = 15 then translateProfile kind a offset
  else
    match settings.windows[number]? with
    | none => .refused .address
    | some w => translateSurvey kind a number offset w

/-- The Translator's checks in their order (R8). -/
def translate (settings : Settings) (installed : Nat) (kind : OpKind) (a : Address) : Screened :=
  if a.absolute && !settings.serviceAccess then .refused .service
  else if 4223 < a.column then .refused .address
  else if kind = .erase && a.column ≠ 0 then .refused .address
  else if a.absolute then translateAbsolute settings installed kind a
  else translateWindowed settings kind a

/-- The Front Port's QUALIFIER check, then the Translator (R20, R25). -/
def screen (settings : Settings) (installed : Nat) (kind : OpKind) (a : Address) : Screened :=
  if a.reserved || (a.through && kind = .read) then .refused .qualifier
  else translate settings installed kind a

end Sys2Proof.Machine
end

