-- ==== Sys2Proof/Machine/Flags.lean ====
section
/-! DEFINITION. The status fields, lines and conditions the part derives from its state. -/

namespace Sys2Proof.Machine

/-- A flag at a bit position, as a number. -/
def flagBit (position : Nat) (flag : Bool) : Nat := if flag then 2 ^ position else 0

/-- A hold is in force while the drop state is FALLING or SETTLING (R83). -/
def DropMonitor.hold (d : DropMonitor) : Bool := decide (d.state ≠ .calm)

/-- FRDY by front state, in SERVICE (R21). -/
def FrontState.ready : FrontState → Bool
  | .idle => true
  | .addressing _ _ => true
  | .loading _ _ => false
  | .delivering _ => true
  | .receiving _ _ => true
  | .awaiting => false

/-- The front ready line; the READY field equals it (R21). -/
def State.frdy (s : State) : Bool := decide (s.control.state = .service) && s.front.state.ready

/-- The status byte from the six fields of R32 (10_formats.md 10.1); bits 5 and 7 are 0 (R185). -/
def State.statusByte (s : State) : Byte :=
  BitVec.ofNat 8 (flagBit 0 s.front.fail + flagBit 1 s.front.refused + flagBit 2 s.front.posted +
    flagBit 3 s.drop.hold + flagBit 4 s.report.attn + flagBit 6 s.frdy)

/-- FLUSHING and SPENT: every front strobe is ignored (R37). -/
def State.frontIgnored (s : State) : Bool :=
  decide (s.control.state = .flushing) || decide (s.control.state = .spent)

/-- STARTING and LINE_RESET: every operation but STATUS is refused (R36). -/
def State.frontClosed (s : State) : Bool :=
  decide (s.control.state = .starting) || decide (s.control.state = .lineReset)

/-! ### Hold Queue conditions -/

def Entry.isPosted (e : Entry) : Bool := decide (e.disposition = .posted)

def Entry.isAttached (e : Entry) : Bool := decide (e.disposition = .awaiting .attached)

def HoldQueue.postedCount (q : HoldQueue) : Nat := q.entries.countP Entry.isPosted

def HoldQueue.awaitingCount (q : HoldQueue) : Nat := q.entries.countP (fun e => !e.isPosted)

/-- The posting limit L (R44). -/
def postingLimit (rsvgood : Bool) (level : Level) (rres : Nat) : Nat :=
  if !rsvgood then 0
  else
    match level with
    | .critical => 0
    | .low => (rres - 1) / 2
    | .unknown => (rres - 1) / 2
    | .normal => rres - 1

def State.limit (s : State) : Nat :=
  postingLimit s.pins.rsvgood s.gauge.derived.level s.control.rres

/-- Commits are allowed (R48). -/
def State.commitsAllowed (s : State) : Bool :=
  match s.control.state with
  | .starting => !s.drop.hold
  | .service => !s.drop.hold
  | .lineReset => !s.drop.hold
  | .flushing => true
  | .spent => false

/-- The gate on media programs and erases is open (R70). -/
def State.writeGateOpen (s : State) : Bool :=
  !s.drop.hold || decide (s.control.state = .flushing)

/-! ### Report Memory conditions -/

/-- The kind code (10_formats.md 10.6). -/
def Payload.code : Payload → Nat
  | .start _ => 0
  | .drop _ => 1
  | .battery _ => 2
  | .commitFail _ => 3
  | .dieOffline _ => 4
  | .profile _ => 5
  | .refusal _ => 6
  | .sensor _ => 7

/-- The attention mask enables the record's kind: bit n for the kind whose code is n (R163, R187). -/
def Record.enabled (mask : BitVec 16) (r : Record) : Bool := mask.getLsbD r.payload.code

/-- The condition of ATTN (R164). -/
def ReportMemory.attnCondition (r : ReportMemory) (mask : BitVec 16) : Bool :=
  !r.masked && r.ring.any (Record.enabled mask)

/-! ### Dies -/

/-- The transfer phases, which need the shared lines (R65). -/
def Phase.isTransfer : Phase → Bool
  | .command => true
  | .busy _ _ _ => false
  | .readout => true
  | .status _ => true

/-- The die has a transfer that has the lines or waits for them. -/
def DieState.inTransfer : DieState → Bool
  | .idle => false
  | .offline => false
  | .busy op => op.phase.isTransfer

def MediaKind.isWrite : MediaKind → Bool
  | .read => false
  | .program => true
  | .erase => true
  | .reset => false

/-- The die has a media program or erase in progress (R134). -/
def DieState.writing : DieState → Bool
  | .idle => false
  | .offline => false
  | .busy op => op.kind.isWrite

/-- The number of media programs and erases in progress (R134). -/
def Scheduler.writesInProgress (m : Scheduler) : Nat :=
  allDies.countP (fun d => (m.dies.get d).state.writing)

/-- A die of this position is within the installed count in force. -/
def State.isInstalled (s : State) (d : Die) : Bool := decide (d.val < s.control.installed)

/-- The flags of a START record: installed positions that are IDLE or BUSY (R180). -/
def State.answering (s : State) : PerDie Bool :=
  let one (d : Die) : Bool := s.isInstalled d && decide (s.die d ≠ .offline)
  ⟨one 0, one 1, one 2, one 3⟩

/-- The die select line MSELn: asserted while the die has a media operation in progress (R38, R64, R73; DEDUCED,
log entry 23). -/
def State.msel (s : State) (d : Die) : Bool :=
  match s.die d with
  | .idle => false
  | .offline => false
  | .busy _ => true

end Sys2Proof.Machine
end

