-- ==== Sys2Proof/Machine/Report.lean ====
section
/-! DEFINITION. Report Memory's operations: append, coalesce, release, load (chapter 8). -/

namespace Sys2Proof.Machine

def Slots.get (v : Slots) : RecordedCause → Option Tick
  | .address => v.address
  | .closed => v.closed
  | .service => v.service

def Slots.set (v : Slots) (c : RecordedCause) (x : Option Tick) : Slots :=
  match c with
  | .address => { v with address := x }
  | .closed => { v with closed := x }
  | .service => { v with service := x }

/-- A record leaves the ring: the slot that names it becomes empty (R154). -/
def freeSlot (slots : Slots) (r : Record) : Slots :=
  match r.payload with
  | .refusal x => if slots.get x.cause = some r.number then slots.set x.cause none else slots
  | .start _ => slots
  | .drop _ => slots
  | .battery _ => slots
  | .commitFail _ => slots
  | .dieOffline _ => slots
  | .profile _ => slots
  | .sensor _ => slots

/-- ATTN is re-evaluated (R164). -/
def ReportMemory.evaluate (r : ReportMemory) (mask : BitVec 16) : ReportMemory :=
  { r with attn := r.attnCondition mask }

/-- A full ring loses its oldest record (R152 step 4). -/
def ReportMemory.makeRoom (r : ReportMemory) : ReportMemory :=
  match r.ring with
  | [] => r
  | oldest :: rest =>
    if 256 ≤ r.ring.length then { r with ring := rest, slots := freeSlot r.slots oldest } else r

/-- R152. -/
def ReportMemory.append (r : ReportMemory) (mask : BitVec 16) (stamp : Tick) (payload : Payload) :
    ReportMemory :=
  let room := r.makeRoom
  ReportMemory.evaluate
    { room with
      ring := room.ring ++ [{ number := r.next, count := 1, stamp := stamp, payload := payload }]
      next := r.next + 1 }
    mask

/-- A repeat is folded into the record (R155). -/
def coalesce (op : OpKind) (row : BitVec 24) (stamp : Tick) (r : Record) : Record :=
  match r.payload with
  | .refusal x =>
    { r with count := satAdd 65535 r.count 1
             payload := .refusal { x with lastOp := op, lastRow := row, lastTick := stamp } }
  | .start _ => r
  | .drop _ => r
  | .battery _ => r
  | .commitFail _ => r
  | .dieOffline _ => r
  | .profile _ => r
  | .sensor _ => r

/-- A refusal that is recorded: append a record, or coalesce into the one its slot names (R155). -/
def ReportMemory.refuse (r : ReportMemory) (mask : BitVec 16) (cause : RecordedCause) (op : OpKind)
    (row : BitVec 24) (absolute : Bool) (stamp : Tick) : ReportMemory :=
  match r.slots.get cause with
  | none =>
    let payload : Payload :=
      .refusal { cause := cause, firstOp := op, firstRow := row, firstAbsolute := absolute
                 lastOp := op, lastRow := row, lastTick := stamp }
    let appended := r.append mask stamp payload
    { appended with slots := appended.slots.set cause (some r.next) }
  | some number =>
    { r with ring := r.ring.map (fun x => if x.number = number then coalesce op row stamp x else x) }

/-- How many records a consumed-through number releases (R157). -/
def ReportMemory.releaseCount (r : ReportMemory) (through : Tick) : Nat :=
  match r.ring with
  | [] => 0
  | oldest :: _ =>
    let d := (through - oldest.number).toNat
    if d < r.ring.length then d + 1
    else if d < 2147483648 then r.ring.length
    else 0

/-- The records up to a consumed-through number leave the ring (R157). -/
def ReportMemory.release (r : ReportMemory) (mask : BitVec 16) (through : Tick) : ReportMemory :=
  let n := r.releaseCount through
  ReportMemory.evaluate
    { r with ring := r.ring.drop n, slots := (r.ring.take n).foldl freeSlot r.slots }
    mask

/-- The load of the sequence counter (R153). -/
def ReportMemory.load (r : ReportMemory) (base : Tick) : ReportMemory :=
  { r with
    ring := r.ring.map (fun x => { x with number := x.number + base })
    slots := { address := r.slots.address.map (· + base), closed := r.slots.closed.map (· + base)
               service := r.slots.service.map (· + base) }
    next := r.next + base
    loaded := true }

/-- The masking ends (R163). -/
def ReportMemory.unmask (r : ReportMemory) (mask : BitVec 16) : ReportMemory :=
  ReportMemory.evaluate { r with masked := false } mask

/-- A block hands Report Memory a record; its timestamp is the present tick. -/
def State.record (s : State) (payload : Payload) : State :=
  s.withReport (s.report.append s.control.settings.mask s.tick payload)

/-- ATTN is re-evaluated with the mask in force. -/
def State.evaluateAttn (s : State) : State :=
  s.withReport (s.report.evaluate s.control.settings.mask)

end Sys2Proof.Machine
end

