-- ==== Sys2Proof/Machine/GaugeOps.lean ====
section
/-! DEFINITION. The Charge Gauge's shared operations: pulses, temperature, the gauge period, full, empty and pack
edges, the start-up hold, the apply and the restore (chapter 6). -/

namespace Sys2Proof.Machine

/-! ### Pulses -/

/-- The current net saturates at both ends of 32 signed bits (R108, R109). -/
def satNet (n : Int) : Int := clampInt (-2147483648) 2147483647 n

/-- One discharge quantum (R108). -/
def Gauge.discharge (g : Gauge) : Gauge :=
  { g with
    remaining := if g.state = .valid then g.remaining - g.weight else g.remaining
    net := satNet (g.net + g.weight)
    drawn := if g.anchor then satAdd 4294967295 g.drawn g.weight else g.drawn }

/-- One charge quantum (R109). -/
def Gauge.charge (g : Gauge) : Gauge :=
  { g with
    remaining := if g.state = .valid then min g.learned (g.remaining + g.weight) else g.remaining
    net := satNet (g.net - g.weight)
    anchor := false }

/-- A pulse before the start-up apply is tallied raw (R111). -/
def Gauge.tally (g : Gauge) (discharging : Bool) : Gauge :=
  if discharging then { g with rawDischarge := satAdd 4294967295 g.rawDischarge 1 }
  else { g with rawCharge := satAdd 4294967295 g.rawCharge 1 }

/-- The tallies are converted with the weight in force (R111). -/
def Gauge.convertTallies (g : Gauge) : Gauge :=
  if g.tallying then
    { g with
      net := satNet (satNet (g.net + g.weight * g.rawDischarge) - g.weight * g.rawCharge)
      anchor := g.anchor && decide (g.rawCharge = 0)
      rawDischarge := 0, rawCharge := 0, tallying := false }
  else g

/-! ### Temperature (R113) -/

def Gauge.updateTemperature (g : Gauge) (zeroCount perDegree : Nat) : Gauge :=
  if g.gateCount = 0 then { g with stale := true }
  else
    let exact := ((g.gateCount : Int) - zeroCount).fdiv perDegree
    let clamped := clampInt (-40) 85 exact
    { g with temperature := clamped, outOfRange := decide (clamped ≠ exact), stale := false
             firstReading := true, gateCount := 0 }

/-! ### The gauge period (R114 to R119) -/

/-- R115: the factor between two points, the quotient truncated towards zero. -/
def interpolate (low high : DeratePoint) (t : Int) : Nat :=
  ((low.factor : Int) +
    (((high.factor : Int) - low.factor) * (t - low.temperature)).tdiv (high.temperature - low.temperature)).toNat

/-- R115. -/
def derateFactor (table : DerateTable) (t : Int) : Nat :=
  if t ≤ table.p1.temperature then table.p1.factor
  else if table.p4.temperature ≤ t then table.p4.factor
  else if t < table.p2.temperature then interpolate table.p1 table.p2 t
  else if t < table.p3.temperature then interpolate table.p2 table.p3 t
  else interpolate table.p3 table.p4 t

/-- R116: the usable capacity. -/
def usableCapacity (learned factor : Nat) : Nat := learned * factor / 256

/-- R116: the remaining usable charge. -/
def usableCharge (remaining learned usable : Nat) : Nat := remaining - (learned - usable)

/-- R116: the state of charge. -/
def stateOfCharge (ru usable : Nat) : Nat := 100 * ru / usable

/-- R117: the level in VALID state. -/
def nextLevel (previous : Level) (soc low critical : Nat) : Level :=
  match previous with
  | .unknown => if low ≤ soc then .normal else if critical ≤ soc then .low else .critical
  | .normal => if soc < critical then .critical else if soc < low then .low else .normal
  | .low => if soc < critical then .critical else if low + 2 ≤ soc then .normal else .low
  | .critical => if low + 2 ≤ soc then .normal else if critical + 2 ≤ soc then .low else .critical

/-- R119: the minutes estimate in VALID state. -/
def minutesLeft (ru : Nat) (buckets : List Int) : Option Nat :=
  let total := buckets.sum
  if buckets.length < 8 ∨ total ≤ 0 then none
  else some (min 65535 (ru / max 1 (total / 8).toNat))

/-- The derived values of one period (R114). -/
def Gauge.derive (g : Gauge) (table : DerateTable) (low critical : Nat) : Derived :=
  let factor := derateFactor table g.temperature
  let usable := usableCapacity g.learned factor
  match g.state with
  | .unknown =>
    { factor := factor, usable := usable, remaining := none, soc := none, level := .unknown, minutes := none }
  | .valid =>
    let ru := usableCharge g.remaining g.learned usable
    let soc := stateOfCharge ru usable
    { factor := factor, usable := usable, remaining := some ru, soc := some soc
      level := nextLevel g.derived.level soc low critical, minutes := minutesLeft ru g.buckets }

/-- R125: the reason of the period's record, if any. -/
def periodReason (changePending : Bool) (before after : Level) (periods interval : Nat) : Option BatteryReason :=
  if changePending then some .state
  else if before ≠ after then some .level
  else if interval ≤ periods then some .periodic
  else none

/-- A BATTERY record as the gauge stands (R126). -/
def Gauge.toRecord (g : Gauge) (reason : BatteryReason) : BatteryRecord :=
  { reason := reason, state := g.state, level := g.derived.level, soc := g.derived.soc
    remainingMah := g.derived.remaining.map (· / 16000), learnedMah := g.learned / 16000
    temperature := g.temperature, stale := g.stale, outOfRange := g.outOfRange, minutes := g.derived.minutes
    factor := g.derived.factor }

/-- The gauge period with its choice of record (R114, R125); the pulse weight of a later apply comes into force at
the period's end (R123). -/
def Gauge.period (g : Gauge) (v : Settings) : Gauge × Option BatteryRecord :=
  let derived := g.derive v.derate v.low v.critical
  let reason := periodReason g.changePending g.derived.level derived.level g.periods v.interval
  let computed := { g with derived := derived }
  match reason with
  | none => ({ computed with periods := satAdd 3600 g.periods 1, weight := v.weight }, none)
  | some why =>
    ({ computed with periods := 0, changePending := false, weight := v.weight }, some (computed.toRecord why))

/-! ### Gates and minutes -/

/-- The gate's 10,000 ticks have passed (R112). -/
def Gauge.gateDue (g : Gauge) : Bool := decide (10000 ≤ g.gateTicks)

/-- R118: the current net becomes the newest of at most 8 buckets. -/
def Gauge.boundary (g : Gauge) : Gauge :=
  { g with
    buckets := (if 8 ≤ g.buckets.length then g.buckets.drop 1 else g.buckets) ++ [g.net]
    net := 0 }

/-- The boundary that ends with the present gate, where it has not been taken by its own command (R112). -/
def Gauge.boundaryAtGate (g : Gauge) : Gauge :=
  if g.gates = 59 ∧ g.boundaryTaken = false then g.boundary else g

/-- The next gate begins as this one ends (R112). -/
def Gauge.nextGate (g : Gauge) : Gauge :=
  { g with gateTicks := g.gateTicks - 10000, gates := (g.gates + 1) % 60, boundaryTaken := false }

/-! ### Full, empty and the pack -/

/-- R120. -/
def Gauge.full (g : Gauge) : Gauge :=
  { g with remaining := g.learned, drawn := 0, anchor := true, state := .valid
           changePending := g.changePending || decide (g.state = .unknown) }

/-- R121: N/2 and N × 5/4. -/
def clampLearned (nominalCu n : Nat) : Nat := clampNat (nominalCu / 2) (nominalCu * 5 / 4) n

/-- R121, anchor valid: the capacity is learned. -/
def Gauge.learn (g : Gauge) : Gauge := { g with learned := clampLearned g.nominalCu g.drawn }

/-- R121: the charge is 0, the anchor void and the gauge VALID. -/
def Gauge.empty (g : Gauge) : Gauge :=
  { g with remaining := 0, anchor := false, state := .valid
           changePending := g.changePending || decide (g.state = .unknown) }

/-- R122: the pack has been removed. -/
def Gauge.packOut (g : Gauge) : Gauge :=
  { g with state := .unknown, anchor := false, remaining := 0, buckets := [], net := 0, seated := false
           changePending := g.changePending || decide (g.state = .valid) }

/-- R122: a pack has been seated. -/
def Gauge.packIn (g : Gauge) : Gauge :=
  { g with state := .unknown, anchor := false, remaining := 0, seated := true
           changePending := g.changePending || decide (g.state = .valid) }

/-- A battery edge acts (R120, R121, R122); a CHGDONE or PKEMPTY rise with no pack seated is ignored (R106). -/
def State.batteryEdge (s : State) (edge : HeldEdge) : State :=
  let g := s.gauge
  match edge with
  | .chgdone => if g.seated then s.withGauge g.full else s
  | .pkempty =>
    if g.seated then
      if g.anchor then
        let learned := s.withGauge g.learn
        let recorded := learned.record (.battery (learned.gauge.toRecord .learned))
        recorded.withGauge recorded.gauge.empty
      else s.withGauge g.empty
    else s
  | .pkpresFall =>
    let out := s.withGauge g.packOut
    out.record (.battery (out.gauge.toRecord .packOut))
  | .pkpresRise =>
    let seated := s.withGauge g.packIn
    seated.record (.battery (seated.gauge.toRecord .packIn))

/-- A battery edge arrives: it is held during the start-up hold (R111), else it acts. -/
def State.takeBatteryEdge (s : State) (edge : HeldEdge) : State :=
  if s.gauge.holding then s.withGauge { s.gauge with held := s.gauge.held ++ [edge] }
  else s.batteryEdge edge

/-- The start-up hold ends: tallies are converted and the held edges act in order (R111). -/
def State.endGaugeHold (s : State) : State :=
  if s.gauge.holding then
    let edges := s.gauge.held
    let converted := s.gauge.convertTallies
    edges.foldl State.batteryEdge (s.withGauge { converted with holding := false, held := [] })
  else s

/-! ### Applies and the restore -/

/-- Before the first reading T stands at T_1 of the table in force (R113). -/
def Gauge.followTable (g : Gauge) (table : DerateTable) : Gauge :=
  if g.firstReading then g else { g with temperature := table.p1.temperature }

/-- An apply that changes the nominal (R123); one that leaves it as it was changes nothing. -/
def Gauge.changeNominal (g : Gauge) (nominal : Nat) : Gauge :=
  if nominal * 16000 = g.nominalCu then g
  else
    let learned := clampLearned (nominal * 16000) g.learned
    { g with nominalCu := nominal * 16000, learned := learned, remaining := min learned g.remaining }

/-- The start-up apply: N, Lc := N, the weight at once, the tallies converted (R123, R111, R175). -/
def Gauge.startUpApply (g : Gauge) (v : Settings) : Gauge :=
  let n := v.nominal * 16000
  Gauge.followTable
    (Gauge.convertTallies
      { g with nominalCu := n, learned := n, remaining := min n g.remaining, weight := v.weight })
    v.derate

/-- The apply of the defaults at a dip recovery (R145, R149): the parameters come into force as at a start-up apply, but a
nominal that stays as it was leaves N, Lc and Rc untouched (R123, R128): a capacity learned in SPENT is kept. -/
def Gauge.recoveryApply (g : Gauge) (v : Settings) : Gauge :=
  Gauge.followTable (Gauge.convertTallies { g.changeNominal v.nominal with weight := v.weight }) v.derate

/-- Any other apply (R123). -/
def Gauge.laterApply (g : Gauge) (v : Settings) : Gauge := (g.changeNominal v.nominal).followTable v.derate

/-- What a FLUSH note carries of the gauge (R127, R142). -/
structure GaugeNote where
  remaining : Nat
  learned : Nat
  valid : Bool
  anchor : Bool
  drawn : Nat
  deriving DecidableEq, Repr

/-- The restore from a FLUSH note (R127, R188). With no pack seated the charge half is declined and D stays as it stood: the
model's reading, since R127 does not name D there (log entry 30). -/
def Gauge.restore (g : Gauge) (n : GaugeNote) : Gauge :=
  let learned := clampLearned g.nominalCu n.learned
  if !g.seated then { g with learned := learned, state := .unknown, anchor := false, remaining := 0 }
  else if n.valid then
    { g with learned := learned, state := .valid, anchor := n.anchor, drawn := n.drawn
             remaining := min learned n.remaining, changePending := true }
  else { g with learned := learned, state := .unknown, anchor := false, drawn := n.drawn, remaining := 0 }

end Sys2Proof.Machine
end

