-- ==== Sys2Proof/Machine/Battery.lean ====
section
/-! DEFINITION. The commands of the battery lines and the gauge's gates: QPULSE_RISE, TFREQ_RISE, GATE_END,
MINUTE_BOUNDARY, CHGDONE_RISE, PKEMPTY_RISE, PKPRES_FALL and PKPRES_RISE (chapter 6). -/

namespace Sys2Proof.Machine

/-- QPULSE_RISE with the level of QDIR, high for discharge (R106, R108, R109, R111). -/
def execQpulseRise (qdir : Bool) (s : State) : Host.Outcome State Fault Refusal :=
  .next
    (s.withGauge
      (if s.gauge.tallying then s.gauge.tally qdir
       else if qdir then s.gauge.discharge
       else s.gauge.charge))

/-- TFREQ_RISE (R112). -/
def execTfreqRise (s : State) : Host.Outcome State Fault Refusal :=
  .next (s.withGauge { s.gauge with gateCount := satAdd 1048575 s.gauge.gateCount 1 })

/-- The gate-end work in its order: minute boundary, temperature, gauge period with its record (R112). -/
def State.endGate (s : State) : State :=
  let v := s.control.settings
  let bounded := s.gauge.boundaryAtGate.updateTemperature v.zeroCount v.perDegree
  let period := bounded.period v
  let after := s.withGauge period.1.nextGate
  match period.2 with
  | none => after
  | some record => after.record (.battery record)

/-- GATE_END (R112): taken where the gate's 10,000 ticks have passed. -/
def execGateEnd (s : State) : Host.Outcome State Fault Refusal :=
  .next (if s.gauge.gateDue then s.endGate else s)

/-- MINUTE_BOUNDARY (R118): taken at the end of the sixtieth gate, before its GATE_END (log entry 20). -/
def execMinuteBoundary (s : State) : Host.Outcome State Fault Refusal :=
  .next
    (if s.gauge.gateDue ∧ s.gauge.gates = 59 ∧ s.gauge.boundaryTaken = false then
       s.withGauge { s.gauge.boundary with boundaryTaken := true }
     else s)

/-- CHGDONE_RISE (R106, R111, R120). -/
def execChgdoneRise (s : State) : Host.Outcome State Fault Refusal := .next (s.takeBatteryEdge .chgdone)

/-- PKEMPTY_RISE (R106, R111, R121). -/
def execPkemptyRise (s : State) : Host.Outcome State Fault Refusal := .next (s.takeBatteryEdge .pkempty)

/-- PKPRES_FALL (R111, R122): an edge only where the line was high. -/
def execPkpresFall (s : State) : Host.Outcome State Fault Refusal :=
  .next
    (if s.pins.pkpres then (s.withPins { s.pins with pkpres := false }).takeBatteryEdge .pkpresFall else s)

/-- PKPRES_RISE (R111, R122): an edge only where the line was low. -/
def execPkpresRise (s : State) : Host.Outcome State Fault Refusal :=
  .next
    (if s.pins.pkpres then s else (s.withPins { s.pins with pkpres := true }).takeBatteryEdge .pkpresRise)

end Sys2Proof.Machine
end

