-- ==== Sys2Proof/Machine/DropOps.lean ====
section
/-! DEFINITION. The Drop Monitor's shared operations: latching, opening and merging, onsets, impacts, the span and
height, closing, the reports of the Hold Queue, and passing DROP records on (chapter 5). -/

namespace Sys2Proof.Machine

/-- The parameters in force, as latched at a departure from CALM (R82). -/
def Settings.dropParams (v : Settings) : DropParams :=
  { settleMs := v.settleMs, ceilingMs := v.ceilingMs, mergeMs := v.mergeMs, latency := v.latency }

/-- The latched set; in CALM before any latching nothing reads it. -/
def DropMonitor.params (d : DropMonitor) (v : Settings) : DropParams := d.latched.getD v.dropParams

/-- A function applied to the youngest drop of the table. -/
def updateYoungest (f : Drop → Drop) : List Drop → List Drop
  | [] => []
  | [x] => [f x]
  | x :: y :: rest => x :: updateYoungest f (y :: rest)

def DropMonitor.youngest (d : DropMonitor) (f : Drop → Drop) : DropMonitor :=
  { d with pending := updateYoungest f d.pending }

/-! ### The table -/

/-- The drop record of a closed drop (R101). -/
def Drop.toRecord (x : Drop) (closeTick : Tick) : DropRecord :=
  { number := x.number, kind := x.kind, openTick := x.openTick, closeTick := closeTick, measure := x.measure
    onsetCount := x.onsetCount, airborne := x.airborne, falls := x.falls, impacts := x.impacts
    longestWidth := x.longestWidth, postedHeld := x.postedHeld, awaitingHeld := x.awaitingHeld
    failed := x.failed, ceilingMark := x.ceilingMark, powerDip := x.powerDip }

/-- The record of a drop that is closed and has no entry outstanding (R100 conditions 1 and 2). -/
def Drop.ready (x : Drop) : Option DropRecord :=
  match x.condition with
  | .opened => none
  | .closed tick => if x.outstanding = 0 then some (x.toRecord tick) else none

/-- Passes the oldest drops on while they are ready, one after another (R100). -/
def passReady (mask : BitVec 16) (stamp : Tick) : List Drop → ReportMemory → List Drop × ReportMemory
  | [], r => ([], r)
  | x :: rest, r =>
    match x.ready with
    | none => (x :: rest, r)
    | some record => passReady mask stamp rest (r.append mask stamp (.drop record))

/-- The oldest drop is tested; nothing is passed on before the counter is loaded (R100, R103). -/
def State.reportDrops (s : State) : State :=
  if s.drop.loaded then
    let passed := passReady s.control.settings.mask s.tick s.drop.pending s.report
    (s.withDrop { s.drop with pending := passed.1 }).withReport passed.2
  else s

/-! ### Reports of the Hold Queue (R97) -/

def updateTagged (tag : Tick) (f : Drop → Drop) (l : List Drop) : List Drop :=
  l.map (fun x => if x.number = tag then f x else x)

/-- A tagged entry is accepted (R97). -/
def Drop.accepted (posted : Bool) (x : Drop) : Drop :=
  if posted then { x with outstanding := x.outstanding + 1, postedHeld := satAdd 65535 x.postedHeld 1 }
  else { x with outstanding := x.outstanding + 1, awaitingHeld := satAdd 65535 x.awaitingHeld 1 }

/-- How an entry left the queue (R46). -/
inductive Departure where
  | committed | failed | lost | withdrawn
  deriving DecidableEq, Repr

def Departure.counts : Departure → Bool
  | .committed => false
  | .failed => true
  | .lost => true
  | .withdrawn => false

/-- A tagged entry has left (R97). -/
def Drop.departed (way : Departure) (x : Drop) : Drop :=
  { x with outstanding := x.outstanding - 1
           failed := if way.counts then satAdd 65535 x.failed 1 else x.failed }

/-- The Hold Queue reports an acceptance. -/
def State.dropAccepted (s : State) (tag : Option Tick) (posted : Bool) : State :=
  match tag with
  | none => s
  | some number => s.withDrop { s.drop with pending := updateTagged number (Drop.accepted posted) s.drop.pending }

/-- The Hold Queue reports a departure; the oldest drop is then tested (R97, R100). -/
def State.dropDeparted (s : State) (tag : Option Tick) (way : Departure) : State :=
  match tag with
  | none => s
  | some number =>
    (s.withDrop
      { s.drop with pending := updateTagged number (Drop.departed way) s.drop.pending }).reportDrops

/-! ### Onsets and impacts -/

/-- A new onset: counted, and listed while fewer than 8 are listed (R86). -/
def Drop.beginOnset (stamp : Tick) (x : Drop) : Drop :=
  { x with onsetCount := satAdd 65535 x.onsetCount 1
           onsets := if x.onsets.length < 8 then x.onsets ++ [{ start := stamp, stop := none }] else x.onsets }

/-- The end of the onset that started at `start`, where it is listed (R85). -/
def endListed (start stop : Tick) : List Onset → List Onset × Nat
  | [] => ([], 0)
  | x :: rest =>
    if x.stop = none ∧ x.start = start then
      ({ x with stop := some stop } :: rest, (stop - start).toNat)
    else
      let ended := endListed start stop rest
      (x :: ended.1, ended.2)

def Drop.endOnset (start stop : Tick) (x : Drop) : Drop :=
  let ended := endListed start stop x.onsets
  { x with onsets := ended.1, airborne := satAdd 4294967295 x.airborne ended.2 }

/-- The open onset ends; no open onset, no effect (R85, R90, R91). -/
def DropMonitor.endOnset (d : DropMonitor) (stamp : Tick) : DropMonitor :=
  match d.openOnset with
  | none => d
  | some start => { d.youngest (Drop.endOnset start stamp) with openOnset := none }

/-- The longest impact width is kept (R94), for a drop of any kind: R94 says that a CATCH drop has none, but measures every
impact taken in SETTLING (R89), which leaves a CATCH drop CATCH; the model keeps that width (log entry 31). -/
def Drop.keepWidth (width : Nat) (x : Drop) : Drop :=
  { x with longestWidth := some (max width (x.longestWidth.getD 0)) }

/-- The impact measurement ends; no measurement open, no effect (R94). -/
def DropMonitor.endImpact (d : DropMonitor) (stamp : Tick) : DropMonitor :=
  match d.impactStart with
  | none => d
  | some start =>
    { d.youngest (Drop.keepWidth (min 65535 (stamp - start).toNat)) with impactStart := none }

def Drop.addImpact (x : Drop) : Drop := { x with impacts := satAdd 65535 x.impacts 1 }

/-- R95: the fall span, clamped. -/
def fallSpan (impact firstOnset : Tick) (latency : Nat) : Nat :=
  min 65535 ((impact - firstOnset).toNat + latency)

/-- R96: the height in millimetres. -/
def fallHeight (n : Nat) : Nat := min 65535 (n * n * 49033 / 1000000000)

/-- An impact taken in FALLING (R88). -/
def Drop.impactInFall (stamp : Tick) (latency : Nat) (x : Drop) : Drop :=
  match x.onsets with
  | [] => x.addImpact
  | first :: _ =>
    if x.impacts = 0 ∧ x.kind ≠ .multiple then
      let n := fallSpan stamp first.start latency
      { x with measure := some { span := n, height := fallHeight n }
               kind := if x.kind = .catch_ then .fall else x.kind
               impacts := 1 }
    else x.addImpact

/-! ### Departure from CALM -/

/-- What opens a drop (R84). -/
inductive DropEdge where
  | ffall | fimp
  deriving DecidableEq, Repr

/-- A new drop (R84). -/
def newDrop (edge : DropEdge) (number stamp : Tick) (powerDip : Bool) : Drop :=
  { number := number
    kind := match edge with | .ffall => .catch_ | .fimp => .knock
    condition := .opened, openTick := stamp
    onsets := match edge with | .ffall => [{ start := stamp, stop := none }] | .fimp => []
    measure := none
    onsetCount := match edge with | .ffall => 1 | .fimp => 0
    airborne := 0
    falls := match edge with | .ffall => 1 | .fimp => 0
    impacts := match edge with | .ffall => 0 | .fimp => 1
    longestWidth := none, postedHeld := 0, awaitingHeld := 0, failed := 0, outstanding := 0
    ceilingMark := false, powerDip := powerDip }

/-- The youngest drop reopens as MULTIPLE, and the edge acts on it (R99, R104). -/
def Drop.merge (edge : DropEdge) (stamp : Tick) (powerDip : Bool) (x : Drop) : Drop :=
  let reopened := { x with kind := .multiple, condition := .opened, powerDip := x.powerDip || powerDip }
  match edge with
  | .ffall => { reopened.beginOnset stamp with falls := satAdd 65535 reopened.falls 1 }
  | .fimp => reopened.addImpact

/-- A drop that opens or reopens in FLUSHING or SPENT gains the POWER_DIP mark (R104). -/
def ServiceState.dips : ServiceState → Bool
  | .starting => false
  | .service => false
  | .lineReset => false
  | .flushing => true
  | .spent => true

/-- The drop state leaves CALM: the parameters are latched, the ceiling timer starts, drops total increments, and
a drop opens with a new number or the youngest of four reopens (R82, R83, R84, R99). -/
def DropMonitor.depart (d : DropMonitor) (edge : DropEdge) (stamp : Tick) (params : DropParams)
    (powerDip : Bool) : DropMonitor :=
  let table :=
    if d.pending.length < 4 then d.pending ++ [newDrop edge (d.counter + 1) stamp powerDip]
    else updateYoungest (Drop.merge edge stamp powerDip) d.pending
  { d with
    latched := some params
    ceilingTimer := Timer.startMs params.ceilingMs
    total := d.total + 1
    counter := if d.pending.length < 4 then d.counter + 1 else d.counter
    pending := table
    state := match edge with | .ffall => .falling | .fimp => .settling
    settleTimer := match edge with | .ffall => d.settleTimer | .fimp => Timer.startMs params.settleMs
    openOnset := match edge with | .ffall => some stamp | .fimp => d.openOnset
    impactStart := match edge with | .ffall => d.impactStart | .fimp => some stamp }

/-! ### Return to CALM -/

/-- The open drop closes (R91): its open onset and impact measurement end, the timers stop, the state is CALM. -/
def DropMonitor.close (d : DropMonitor) (stamp : Tick) (ceiling : Bool) : DropMonitor :=
  let ended := (d.endOnset stamp).endImpact stamp
  { ended.youngest (fun x =>
      { x with condition := .closed stamp, ceilingMark := x.ceilingMark || ceiling }) with
    state := .calm, mergeTimer := .stopped, settleTimer := .stopped, ceilingTimer := .stopped }

/-- The number of the youngest drop of the table, which is the counter's value (R83, R92). -/
def DropMonitor.current (d : DropMonitor) : Tick := d.counter

/-- The state becomes SETTLING with the settle timer started (R87). -/
def DropMonitor.settle (d : DropMonitor) (params : DropParams) : DropMonitor :=
  { d with state := .settling, mergeTimer := .stopped, settleTimer := Timer.startMs params.settleMs }

/-- The load of the drop number counter (R103). -/
def DropMonitor.load (d : DropMonitor) (base : Tick) : DropMonitor :=
  { d with
    pending := d.pending.map (fun x => { x with number := x.number + base })
    counter := d.counter + base
    loaded := true }

end Sys2Proof.Machine
end

