-- ==== Sys2Proof/Machine/Formats.lean ====
section
/-! DEFINITION. The bytes the drive controller reads: report records, the summary page and the ring page
(chapter 10), and what the part sends on the media side (R38). -/

namespace Sys2Proof.Machine

/-- Bytes that no value takes read 0xFF (R160, R189). -/
def blankBytes (n : Nat) : List Byte := List.replicate n 0xFF#8

/-- An optional field: 0xFF in every byte where it is absent (R189). -/
def optBytes (n : Nat) : Option Nat → List Byte
  | none => blankBytes n
  | some v => leBytes n v

/-- A byte of packed codes; the bits of `unused` belong to no field (log entry 9). -/
def packed (site : UnusedSite) (unused : Byte) (value : Nat) : Byte :=
  BitVec.ofNat 8 value ||| (Config.unusedBits site &&& unused)

/-- A two's complement byte (R189). -/
def signedByte (n : Int) : Byte := BitVec.ofInt 8 n

/-! ### Codes -/

def ServiceState.code : ServiceState → Nat
  | .starting => 0
  | .service => 1
  | .lineReset => 2
  | .flushing => 3
  | .spent => 4

def DropState.code : DropState → Nat
  | .calm => 0
  | .falling => 1
  | .settling => 2

def GaugeState.code : GaugeState → Nat
  | .unknown => 0
  | .valid => 1

def Level.code : Level → Nat
  | .unknown => 0
  | .normal => 1
  | .low => 2
  | .critical => 3

def StartCause.code : StartCause → Nat
  | .powerOnClean => 0
  | .powerOnUnclean => 1
  | .powerOnNoNote => 2
  | .lineReset => 3
  | .dipRecovery => 4

def flushNoteCode : Option FlushNoteOutcome → Nat
  | some .written => 0
  | some .failed => 1
  | some .skipped => 2
  | none => 3

def DropKind.code : DropKind → Nat
  | .fall => 0
  | .catch_ => 1
  | .knock => 2
  | .multiple => 3

def BatteryReason.code : BatteryReason → Nat
  | .periodic => 0
  | .level => 1
  | .state => 2
  | .learned => 3
  | .packOut => 4
  | .packIn => 5

def WriteKind.code : WriteKind → Nat
  | .program => 0
  | .erase => 1

def CommitFailCause.code : CommitFailCause → Nat
  | .media => 0
  | .timeout => 1
  | .offline => 2
  | .lost => 3

def Origin.code : Origin → Nat
  | .window number => number
  | .absolute => 0x80

def OfflineCause.code : OfflineCause → Nat
  | .timeout => 0
  | .noAnswer => 1

def MediaKind.code : MediaKind → Nat
  | .read => 0
  | .program => 1
  | .erase => 2
  | .reset => 3

def RequesterName.code : RequesterName → Nat
  | .front => 0
  | .commit => 1
  | .service => 2

def ApplySource.code : ApplySource → Nat
  | .startUp => 0
  | .lineReset => 1
  | .service => 2

def ApplyOutcome.code : ApplyOutcome → Nat
  | .applied => 0
  | .partly => 1
  | .rejected => 2
  | .defaults => 3
  | .notRead => 4

def RejectReason.code : RejectReason → Nat
  | .check => 0
  | .table => 1

def RecordedCause.code : RecordedCause → Nat
  | .address => 0
  | .closed => 1
  | .service => 2

def OpKind.code : OpKind → Nat
  | .read => 0
  | .program => 1
  | .erase => 2

/-! ### Records -/

/-- The header's first byte: the kind code and the presence flags F0 to F4 (10_formats.md 10.6). -/
def headerByte (code : Nat) (f0 f1 f2 f3 f4 : Bool) : Byte :=
  BitVec.ofNat 8 (code + flagBit 3 f0 + flagBit 4 f1 + flagBit 5 f2 + flagBit 6 f3 + flagBit 7 f4)

/-- The bits of offset 6 that belong to a field that is absent, the row overflow mark (F2) and the withdrawn flag (F3), are
open, as the bit no field takes is (log entry 9). -/
def StartRecord.bytes (r : StartRecord) : Byte × List Byte :=
  let unused : Byte := 0x80#8 ||| (if r.rows.isSome then 0#8 else 0x20#8) |||
    (if r.drained.isSome then 0#8 else 0x40#8)
  (headerByte 0 r.notePage.isSome r.counts.isSome r.rows.isSome r.drained.isSome r.eventTick.isSome,
    [BitVec.ofNat 8 r.cause.code,
     packed .startMarks unused
       (flagBit 0 r.answering.die0 + flagBit 1 r.answering.die1 + flagBit 2 r.answering.die2 +
        flagBit 3 r.answering.die3 + flagBit 4 r.noteFault + flagBit 5 (r.rows.any RowsLoaded.overflow) +
        flagBit 6 (r.drained.any LineResetCounts.withdrawn))] ++
    optBytes 1 r.notePage ++
    optBytes 1 (r.counts.map (fun c => narrow 255 c.committed)) ++
    optBytes 1 (r.counts.map (fun c => narrow 255 c.failed)) ++
    optBytes 1 (r.counts.map (fun c => narrow 255 c.lost)) ++
    [BitVec.ofNat 8 (flushNoteCode r.flushNote)] ++
    optBytes 1 (r.rows.map (fun x => narrow 255 x.count)) ++
    optBytes 1 (r.drained.map (fun x => narrow 255 x.committed)) ++
    optBytes 1 (r.drained.map (fun x => narrow 255 x.failed)) ++
    optBytes 4 (r.eventTick.map BitVec.toNat) ++
    blankBytes 13)

def DropRecord.bytes (r : DropRecord) : Byte × List Byte :=
  (headerByte 1 r.measure.isSome r.longestWidth.isSome false false false,
    leBytes 4 r.number.toNat ++ leBytes 4 r.openTick.toNat ++ leBytes 4 r.closeTick.toNat ++
    optBytes 2 (r.measure.map FallMeasure.span) ++ optBytes 2 (r.measure.map FallMeasure.height) ++
    optBytes 2 r.longestWidth ++
    leBytes 2 (narrow 65535 r.airborne) ++
    leBytes 1 (narrow 255 r.onsetCount) ++ leBytes 1 (narrow 255 r.falls) ++ leBytes 1 (narrow 255 r.impacts) ++
    leBytes 1 (narrow 255 r.postedHeld) ++ leBytes 1 (narrow 255 r.awaitingHeld) ++ leBytes 1 (narrow 255 r.failed) ++
    [packed .dropMarks 0xF0#8 (r.kind.code + flagBit 2 r.ceilingMark + flagBit 3 r.powerDip)])

def BatteryRecord.bytes (r : BatteryRecord) : Byte × List Byte :=
  (headerByte 2 r.soc.isSome r.remainingMah.isSome r.minutes.isSome false false,
    [BitVec.ofNat 8 r.reason.code,
     packed .batteryMarks 0xE0#8 (r.state.code + 2 * r.level.code + flagBit 3 r.stale + flagBit 4 r.outOfRange)] ++
    optBytes 1 r.soc ++ [signedByte r.temperature] ++ optBytes 2 r.remainingMah ++ leBytes 2 r.learnedMah ++
    optBytes 2 r.minutes ++ leBytes 2 r.factor ++ blankBytes 15)

def CommitFailRecord.bytes (r : CommitFailRecord) : Byte × List Byte :=
  (headerByte 3 r.page.isSome r.dropTag.isSome false false false,
    [packed .commitFailMarks 0xE0#8
       (r.kind.code + 2 * r.cause.code + flagBit 3 r.awaiting + flagBit 4 r.overflow),
     BitVec.ofNat 8 r.origin.code] ++
    leBytes 2 r.block ++ optBytes 1 r.page ++ optBytes 4 (r.dropTag.map BitVec.toNat) ++
    leBytes 4 r.acceptTick.toNat ++ blankBytes 14)

def DieOfflineRecord.bytes (r : DieOfflineRecord) : Byte × List Byte :=
  (headerByte 4 r.block.isSome r.page.isSome false false false,
    [packed .dieOfflineMarks 0x80#8
       (r.die.val + 4 * r.cause.code + 8 * r.operation.code + 32 * r.requester.code)] ++
    optBytes 2 r.block ++ optBytes 1 r.page ++ leBytes 4 r.busyStart.toNat ++ leBytes 1 r.timeoutMs ++
    blankBytes 18)

/-- The rejection mask: bit w for window w (R179). -/
def rejectionMask (rejected : List Nat) : Nat :=
  (List.range 14).foldl (fun acc w => acc + flagBit w (rejected.contains w)) 0

/-- The reject reason's bit of offset 5 is open where the reason is absent (F2; log entry 9). The rejection mask has one
flag for each window 0 to 13 (R179), so its bits 14 and 15 are 0. -/
def ProfileRecord.bytes (r : ProfileRecord) : Byte × List Byte :=
  let mask := rejectionMask r.rejection
  (headerByte 5 r.page.isSome r.generation.isSome r.reason.isSome r.pagesFailed.isSome false,
    [packed .profileMarks (if r.reason.isSome then 0#8 else 0x80#8)
       (r.source.code + 4 * r.outcome.code + flagBit 5 r.clamped + flagBit 6 r.pending +
        flagBit 7 (decide (r.reason = some .table)))] ++
    optBytes 1 r.page ++ optBytes 2 r.generation ++
    [BitVec.ofNat 8 mask, BitVec.ofNat 8 (mask / 256)] ++
    optBytes 1 r.pagesFailed ++ blankBytes 20)

def RefusalRecord.bytes (r : RefusalRecord) (count : Nat) : Byte × List Byte :=
  (headerByte 6 false false false false false,
    [packed .refusalMarks 0x80#8
       (r.cause.code + 4 * r.firstOp.code + flagBit 4 r.firstAbsolute + 32 * r.lastOp.code)] ++
    leBytes 3 r.firstRow.toNat ++ leBytes 3 r.lastRow.toNat ++ leBytes 4 r.lastTick.toNat ++
    leBytes 2 count ++ blankBytes 14)

def SensorRecord.bytes : SensorRecord → Byte × List Byte
  | .suspended drop highSince ceilingMs =>
    (headerByte 7 true highSince.isSome true false false,
      [packed .sensorMarks 0xF8#8 0] ++ leBytes 4 drop.toNat ++ optBytes 4 (highSince.map BitVec.toNat) ++
      leBytes 2 ceilingMs ++ blankBytes 4 ++ blankBytes 12)
  | .resumed since =>
    (headerByte 7 false false false true false,
      [packed .sensorMarks 0xF8#8 1] ++ blankBytes 4 ++ blankBytes 4 ++ blankBytes 2 ++
      leBytes 4 since.toNat ++ blankBytes 12)

/-- The header byte and the 27 payload bytes of a record (10_formats.md 10.6). -/
def Record.parts (r : Record) : Byte × List Byte :=
  match r.payload with
  | .start x => x.bytes
  | .drop x => x.bytes
  | .battery x => x.bytes
  | .commitFail x => x.bytes
  | .dieOffline x => x.bytes
  | .profile x => x.bytes
  | .refusal x => x.bytes r.count
  | .sensor x => x.bytes

/-- The 32 bytes of a record's slot (R189). -/
def Record.bytes (r : Record) : List Byte :=
  r.parts.1 :: (leBytes 4 r.stamp.toNat ++ r.parts.2)

/-! ### Report window pages -/

/-- The oldest record's number, or the next sequence number when the ring is empty (R161). -/
def ReportMemory.oldest (r : ReportMemory) : Tick :=
  match r.ring with
  | [] => r.next
  | x :: _ => x.number

/-- The newest record's number, or the number before the next when the ring is empty (R161). -/
def ReportMemory.newest (r : ReportMemory) : Tick :=
  match r.ring.getLast? with
  | none => r.next - 1
  | some x => x.number

/-- The encoding of a die position, NOT_INSTALLED beyond the installed count (R64, 10_formats.md 10.5). -/
def State.dieCode (s : State) (d : Die) : Nat :=
  if s.isInstalled d then
    match s.die d with
    | .idle => 0
    | .busy _ => 1
    | .offline => 2
  else 3

/-- The bytes of the summary page up to column 67 (R160, R161, 10_formats.md 10.5). -/
def State.summaryBytes (s : State) : List Byte :=
  [BitVec.ofNat 8 s.control.state.code, BitVec.ofNat 8 s.drop.state.code,
   packed .summaryFlags 0x80#8
     (flagBit 0 s.drop.hold + flagBit 1 (!s.control.noteUsable) + flagBit 2 s.control.startUpPending +
      flagBit 3 s.gauge.derived.soc.isSome + flagBit 4 s.gauge.derived.minutes.isSome +
      flagBit 5 s.gauge.stale + flagBit 6 s.gauge.outOfRange)] ++
  optBytes 1 s.control.profilePage ++ leBytes 4 s.drop.counter.toNat ++ leBytes 4 s.drop.total.toNat ++
  leBytes 1 s.queue.entries.length ++ leBytes 1 s.queue.postedCount ++ leBytes 1 s.queue.awaitingCount ++
  leBytes 1 s.limit ++ leBytes 1 s.queue.failedRows.length ++
  [BitVec.ofNat 8 (s.dieCode 0), BitVec.ofNat 8 (s.dieCode 1), BitVec.ofNat 8 (s.dieCode 2),
   BitVec.ofNat 8 (s.dieCode 3), BitVec.ofNat 8 s.gauge.state.code, BitVec.ofNat 8 s.gauge.derived.level.code] ++
  optBytes 1 s.gauge.derived.soc ++ [signedByte s.gauge.temperature] ++ blankBytes 1 ++
  optBytes 2 s.gauge.derived.minutes ++ optBytes 2 (s.gauge.derived.remaining.map (· / 16000)) ++
  leBytes 2 (s.gauge.learned / 16000) ++
  leBytes 2 s.front.counters.sequence ++ leBytes 2 s.front.counters.qualifier ++
  leBytes 2 s.front.counters.address ++ leBytes 2 s.front.counters.closed ++
  leBytes 2 s.front.counters.service ++ leBytes 2 s.front.counters.state ++
  leBytes 2 s.media.mediaFailures ++ blankBytes 2 ++
  leBytes 4 s.report.oldest.toNat ++ leBytes 4 s.report.newest.toNat ++
  leBytes 4 s.report.ring.length ++ leBytes 4 s.report.next.toNat ++ leBytes 4 s.tick.toNat

/-- The ring page (R162). -/
def ReportMemory.ringBytes (r : ReportMemory) : List Byte :=
  let shown := r.ring.take 128
  shown.flatMap Record.bytes ++ blankBytes (32 * (128 - shown.length)) ++
  leBytes 2 shown.length ++ leBytes 4 r.oldest.toNat ++ blankBytes 122

/-- A page of the report window, from a column on (R159). -/
def State.reportPage (s : State) (page column : Nat) : List Byte :=
  if page = 0 then (s.summaryBytes ++ blankBytes 4156).drop column
  else if page = 1 then s.report.ringBytes.drop column
  else blankBytes (4224 - column)

/-! ### The media side -/

/-- The row bytes sent to a die: the row within that die, most significant byte first, then two zero column
bytes (R38). -/
def mediaAddress (row : Nat) : List Byte :=
  let within := row % 1048576
  [BitVec.ofNat 8 (within / 65536), BitVec.ofNat 8 (within / 256), BitVec.ofNat 8 within, 0#8, 0#8]

/-- The store bus operation of a media operation (R38). -/
def MediaKind.operation : MediaKind → StoreOperation
  | .read => .read
  | .program => .program
  | .erase => .erase
  | .reset => .reset

/-- One strobe of the part on the media side: the bus has separate strobes for the operation byte, the address bytes, the
data bytes and END (chapter 2), and `take` takes one byte from the die. -/
inductive MediaStrobe where
  | operation (byte : Byte)
  | address (byte : Byte)
  | data (byte : Byte)
  | endStrobe
  | take
  deriving DecidableEq, Repr

/-- What follows the address: a PROGRAM sends all 4224 bytes of its image and END, an ERASE END alone, a READ and a
RESET nothing (R38, R65). -/
def MediaOp.commandTail (op : MediaOp) : List MediaStrobe :=
  match op.kind with
  | .program => (pageBytes op.image 0 4224).map MediaStrobe.data ++ [.endStrobe]
  | .erase => [.endStrobe]
  | .read => []
  | .reset => []

/-- The command transfer of an operation (R38, R65). -/
def MediaOp.commandTransfer (op : MediaOp) : List MediaStrobe :=
  .operation op.kind.operation.byte ::
    (match op.row with
     | none => []
     | some row => (mediaAddress row).map MediaStrobe.address) ++
    op.commandTail

/-- The strobes of the transfer an operation is in (R65): the command transfer; the readout, which takes all 4224 bytes; the
status read, which sends the STATUS byte and takes one byte (R185). The busy interval is no transfer. -/
def MediaOp.transfer (op : MediaOp) : List MediaStrobe :=
  match op.phase with
  | .command => op.commandTransfer
  | .busy _ _ _ => []
  | .readout => List.replicate 4224 .take
  | .status _ => [.operation StoreOperation.status.byte, .take]

/-- The transfer on the shared lines: the die that is selected for it and the part's strobes (R38, R65). -/
def State.lineTransfer (s : State) : Option (Die × List MediaStrobe) :=
  match s.media.lines with
  | [] => none
  | d :: _ =>
    match s.die d with
    | .idle => none
    | .offline => none
    | .busy op => some (d, op.transfer)

end Sys2Proof.Machine
end

