-- ==== Sys2Proof/Machine/Profile.lean ====
section
/-! DEFINITION. Profile pages: the page check, decoding, clamping, settling the windows and applying (R171 to R175,
R5, R6, R186, R187). -/

namespace Sys2Proof.Machine

/-! ### The page check (R171) -/

def profileTag : Nat := 0x7E31
def noteTag : Nat := 0xB35C

/-- A page whose read passed and whose 4224 bytes are all 0xFF: nothing is listed (R171). -/
def isErased (page : Page) : Bool := decide (page = [])

/-- The check of a profile page whose media read passed (R171, R186: 64 words). -/
def profilePageOk (page : Page) : Bool :=
  decide (readField page 0 2 = profileTag) && decide (wordSum page 64 = 0)

/-- The check of a note page whose media read passed (R171, R186: 49 words). -/
def notePageOk (page : Page) : Bool :=
  decide (readField page 0 2 = noteTag) &&
  (decide (readField page 2 1 = 1) || decide (readField page 2 1 = 2)) &&
  decide (wordSum page 49 = 0)

/-! ### Decoding (10_formats.md 10.3, R187) -/

def decodeWindow (page : Page) (w : Nat) : Window :=
  let at_ := 42 + 6 * w
  let flags := readCell page (at_ + 4)
  { enabled := flags.getLsbD 0, base := readField page at_ 2, extent := readField page (at_ + 2) 2
    holdEligible := flags.getLsbD 1, closed := flags.getLsbD 2 }

def decodePoint (page : Page) (column : Nat) : DeratePoint :=
  { temperature := (readCell page column).toInt, factor := readField page (column + 1) 2 }

/-- The fields of a profile record as its columns hold them. -/
def decodeProfile (page : Page) : ProfileImage :=
  let flags := readCell page 6
  { generation := readField page 2 2
    installed := readField page 4 1
    rres := readField page 5 1
    live :=
      { serviceAccess := flags.getLsbD 0, knockHold := flags.getLsbD 1
        patience := readField page 7 1, dieTimeoutMs := readField page 8 1, mergeMs := readField page 9 1
        settleMs := readField page 10 2, ceilingMs := readField page 12 2, latency := readField page 14 2
        mask := BitVec.ofNat 16 (readField page 16 2), weight := readField page 18 2
        nominal := readField page 20 2, low := readField page 22 1, critical := readField page 23 1
        zeroCount := readField page 24 2, perDegree := readField page 26 2
        derate := { p1 := decodePoint page 28, p2 := decodePoint page 31, p3 := decodePoint page 34
                    p4 := decodePoint page 37 }
        interval := readField page 40 2
        windows := (List.range 14).map (decodeWindow page) } }

/-! ### Clamping (R173 stage 2) -/

def clampPoint (p : DeratePoint) : DeratePoint :=
  { temperature := clampInt (-40) 85 p.temperature, factor := clampNat 1 256 p.factor }

def clampDerate (t : DerateTable) : DerateTable :=
  { p1 := clampPoint t.p1, p2 := clampPoint t.p2, p3 := clampPoint t.p3, p4 := clampPoint t.p4 }

def clampSettings (v : Settings) : Settings :=
  let low := clampNat 1 50 v.low
  { v with
    patience := clampNat 1 8 v.patience, dieTimeoutMs := clampNat 1 255 v.dieTimeoutMs
    mergeMs := clampNat 0 100 v.mergeMs, settleMs := clampNat 10 2000 v.settleMs
    ceilingMs := clampNat 500 10000 v.ceilingMs, latency := clampNat 0 2000 v.latency
    weight := clampNat 1 65535 v.weight, nominal := clampNat 500 20000 v.nominal
    low := low, critical := clampNat 0 (low - 1) v.critical
    zeroCount := clampNat 0 65535 v.zeroCount, perDegree := clampNat 1 255 v.perDegree
    derate := clampDerate v.derate, interval := clampNat 1 3600 v.interval }

def clampProfile (p : ProfileImage) : ProfileImage :=
  { p with installed := clampNat 1 4 p.installed, rres := clampNat 2 64 p.rres, live := clampSettings p.live }

/-- R173 stage 3: the temperatures are strictly ascending. -/
def DerateTable.ascending (t : DerateTable) : Bool :=
  decide (t.p1.temperature < t.p2.temperature) && decide (t.p2.temperature < t.p3.temperature) &&
  decide (t.p3.temperature < t.p4.temperature)

/-- The default profile (R175). -/
def defaultProfile : ProfileImage :=
  { generation := 0, installed := defaultInstalled, rres := defaultRres, live := defaultSettings }

/-! ### Windows (R5, R6) -/

/-- The ranges of two entries have a block in common. -/
def rangesMeet (a b : Window) : Bool :=
  decide (a.base < b.base + b.extent) && decide (b.base < a.base + a.extent)

/-- The range includes the block (R5 condition 3). -/
def rangeHas (w : Window) (block : Nat) : Bool := decide (w.base ≤ block) && decide (block < w.base + w.extent)

/-- R5: an enabled candidate's conditions 1 to 4, against the final entries of the lower windows. -/
def candidateValid (installed : Nat) (lower : List Window) (c : Window) : Bool :=
  !c.enabled ||
    (decide (2 ≤ c.base) && decide (1 ≤ c.extent) && decide (c.extent ≤ 8192) &&
     decide (c.base + c.extent ≤ installed * 8192) &&
     !rangeHas c 0 && !rangeHas c 1 &&
     lower.all (fun w => !(w.enabled && rangesMeet c w)))

/-- R6: the windows are settled in ascending number; the final entries and the numbers rejected. `final` holds the
entries already settled. -/
def settleWindows (installed : Nat) : List Window → List Window → List Window → List Window × List Nat
  | [], _, final => (final, [])
  | before :: befores, [], final => (final ++ before :: befores, [])
  | before :: befores, candidate :: candidates, final =>
    if candidateValid installed final candidate then
      settleWindows installed befores candidates (final ++ [candidate])
    else
      let settled := settleWindows installed befores candidates (final ++ [before])
      (settled.1, final.length :: settled.2)

/-! ### Applying (R173 to R175) -/

/-- What stages 1 to 3 make of a page image. -/
inductive Tested where
  | rejected (reason : RejectReason) (clamped : Bool)
  | accepted (profile : ProfileImage) (clamped : Bool)
  deriving DecidableEq, Repr

/-- The three stages of R173. -/
def testProfile (page : Page) : Tested :=
  if profilePageOk page then
    let raw := decodeProfile page
    let profile := clampProfile raw
    let clamped := decide (profile ≠ raw)
    if profile.live.derate.ascending then .accepted profile clamped else .rejected .table clamped
  else .rejected .check false

/-- A rejected apply changes nothing; its record says why (R173, R179). -/
def State.rejectApply (s : State) (source : ApplySource) (page : Nat) (reason : RejectReason) (clamped : Bool)
    (pagesFailed : Option Nat) : State :=
  s.record (.profile
    { source := source, outcome := .rejected, page := some page, generation := none, rejection := []
      reason := some reason, clamped := clamped, pending := s.control.startUpPending
      pagesFailed := pagesFailed })

/-- The live settings come into force with the windows settled against the entries in force (R174, R6); the answer
is the numbers of the windows rejected. -/
def State.putLive (s : State) (v : Settings) : State × List Nat :=
  let settled := settleWindows s.control.installed s.control.settings.windows v.windows []
  (s.withControl { s.control with settings := { v with windows := settled.1 } }, settled.2)

/-- An apply other than the start-up apply: live settings, the pending flag, the page in force, ATTN (R174, R175). -/
def State.laterApply (s : State) (profile : ProfileImage) (page : Option Nat) : State × List Nat :=
  let live := s.putLive profile.live
  let pending := decide (profile.installed ≠ s.control.installed) || decide (profile.rres ≠ s.control.rres)
  let gauged := live.1.withGauge (live.1.gauge.laterApply profile.live)
  let kept := gauged.withControl { gauged.control with startUpPending := pending, profilePage := page }
  (kept.evaluateAttn, live.2)

/-- An apply that puts the start-up fields in force too (R175): start-up fields, windows against the defaults, live settings
with the gauge they leave, the end of the masking. -/
def State.wholeApply (s : State) (profile : ProfileImage) (page : Option Nat) (gauge : Gauge) : State × List Nat :=
  let fields := s.withControl
    { s.control with
      installed := profile.installed, rres := profile.rres, startUpPending := false, profilePage := page
      settings := { s.control.settings with windows := defaultWindows } }
  let live := fields.putLive profile.live
  let gauged := live.1.withGauge gauge
  (gauged.withReport (gauged.report.unmask gauged.control.settings.mask), live.2)

/-- The start-up apply (R175). -/
def State.startUpApply (s : State) (profile : ProfileImage) (page : Option Nat) : State × List Nat :=
  s.wholeApply profile page (s.gauge.startUpApply profile.live)

/-- The apply of the defaults at a dip recovery (R145, R149). -/
def State.recoveryApply (s : State) : State :=
  (s.wholeApply defaultProfile none (s.gauge.recoveryApply defaultSettings)).1

/-- R179: APPLIED where every candidate was accepted, else PARTIAL. -/
def appliedOutcome (rejected : List Nat) : ApplyOutcome := if rejected = [] then .applied else .partly

/-- The PROFILE record of an apply that was not rejected (R179). -/
def State.recordApply (s : State) (source : ApplySource) (page generation : Nat) (rejected : List Nat)
    (clamped : Bool) (pagesFailed : Option Nat) : State :=
  s.record (.profile
    { source := source, outcome := appliedOutcome rejected, page := some page, generation := some generation
      rejection := rejected, reason := none, clamped := clamped, pending := s.control.startUpPending
      pagesFailed := pagesFailed })

/-- The PROFILE record of an apply that put no page in force (R179: DEFAULTS, NOT_READ). -/
def State.recordNoPage (s : State) (source : ApplySource) (outcome : ApplyOutcome) (pagesFailed : Option Nat) :
    State :=
  s.record (.profile
    { source := source, outcome := outcome, page := none, generation := none, rejection := [], reason := none
      clamped := false, pending := s.control.startUpPending, pagesFailed := pagesFailed })

/-- The in-service apply of a committed image (R181). -/
def State.serviceApply (s : State) (image : Page) (page : Nat) : State :=
  match testProfile image with
  | .rejected reason clamped => s.rejectApply .service page reason clamped none
  | .accepted profile clamped =>
    let applied := s.laterApply profile (some page)
    applied.1.recordApply .service page profile.generation applied.2 clamped none

/-- The result of a scan of the profile block (R172). -/
inductive ScanResult where
  | found (page : Nat) (image : Page) (failed : Nat)
  | nothing (failed : Nat)
  | unread
  deriving DecidableEq, Repr

/-- The start-up apply of a scan's result (R175, R179). -/
def State.applyAtStartUp (s : State) (result : ScanResult) : State :=
  match result with
  | .found page image failed =>
    match testProfile image with
    | .rejected reason clamped =>
      ((s.startUpApply defaultProfile none).1).rejectApply .startUp page reason clamped (some failed)
    | .accepted profile clamped =>
      let applied := s.startUpApply profile (some page)
      applied.1.recordApply .startUp page profile.generation applied.2 clamped (some failed)
  | .nothing failed => ((s.startUpApply defaultProfile none).1).recordNoPage .startUp .defaults (some failed)
  | .unread => ((s.startUpApply defaultProfile none).1).recordNoPage .startUp .notRead none

/-- The line-reset apply of a scan's result (R183, R179). -/
def State.applyAtLineReset (s : State) (result : ScanResult) : State :=
  match result with
  | .found page image failed =>
    match testProfile image with
    | .rejected reason clamped => s.rejectApply .lineReset page reason clamped (some failed)
    | .accepted profile clamped =>
      let applied := s.laterApply profile (some page)
      applied.1.recordApply .lineReset page profile.generation applied.2 clamped (some failed)
  | .nothing failed => ((s.laterApply defaultProfile none).1).recordNoPage .lineReset .defaults (some failed)
  | .unread => s.recordNoPage .lineReset .notRead none

end Sys2Proof.Machine
end

