-- ==== Sys2Proof/Machine/Note.lean ====
section
/-! DEFINITION. Note pages: composing and decoding (R142, R146, R186, R188; 10_formats.md 10.4). -/

namespace Sys2Proof.Machine

/-- The four bytes of a row record (10_formats.md 10.4). -/
def rowBytes (row : FailedRow) : List Byte := leBytes 2 row.block ++ optBytes 1 row.page ++ [0#8]

/-- The check word that makes the word sum 0 (R186). -/
def checkWord (page : Page) (words : Nat) : Nat := (65536 - wordSum page words) % 65536

/-- A note page from its first 96 bytes: the check word follows, the rest stays 0xFF. -/
def sealNote (bytes : List Byte) : Page :=
  let unsealed := writeBytes [] 0 bytes
  writeBytes unsealed 96 (leBytes 2 (checkWord unsealed 48))

/-- An OPENED note (R146). -/
def openedNote (stamp dropCounter sequence : Tick) : Page :=
  sealNote (leBytes 2 noteTag ++ [0x01#8, 0#8] ++ leBytes 4 stamp.toNat ++ leBytes 4 dropCounter.toNat ++
    leBytes 4 sequence.toNat ++ List.replicate 80 0#8)

/-- A FLUSH note (R142). -/
def flushNote (stamp dropCounter sequence : Tick) (gauge : GaugeNote) (rows : List FailedRow) (overflow : Bool)
    (counts : FlushCounts) : Page :=
  let listed := rows.take 16
  sealNote (leBytes 2 noteTag ++ [0x02#8] ++
    [packed .noteFlags 0xF8#8 (flagBit 0 gauge.valid + flagBit 1 gauge.anchor + flagBit 2 overflow)] ++
    leBytes 4 stamp.toNat ++ leBytes 4 dropCounter.toNat ++ leBytes 4 sequence.toNat ++
    leBytes 4 gauge.remaining ++ leBytes 4 gauge.learned ++ leBytes 4 gauge.drawn ++
    leBytes 1 counts.committed ++ leBytes 1 counts.failed ++ leBytes 1 counts.lost ++
    leBytes 1 listed.length ++ listed.flatMap rowBytes ++ List.replicate (4 * (16 - listed.length)) 0#8)

/-- What a FLUSH note takes from the gauge (R127). -/
def Gauge.toNote (g : Gauge) : GaugeNote :=
  { remaining := g.remaining, learned := g.learned, valid := decide (g.state = .valid), anchor := g.anchor
    drawn := g.drawn }

/-- The FLUSH note of the state as it stands (R142). -/
def State.composeFlushNote (s : State) : Page :=
  flushNote s.tick s.drop.counter s.report.next s.gauge.toNote s.queue.failedRows s.control.rowOverflow
    s.control.counts

/-- The OPENED note of the state as it stands (R146). -/
def State.composeOpenedNote (s : State) : Page := openedNote s.tick s.drop.counter s.report.next

/-! ### Decoding (R188) -/

def noteIsFlush (page : Page) : Bool := decide (readField page 2 1 = 2)

def noteDropCounter (page : Page) : Tick := BitVec.ofNat 32 (readField page 8 4)

def noteSequence (page : Page) : Tick := BitVec.ofNat 32 (readField page 12 4)

def noteGauge (page : Page) : GaugeNote :=
  { remaining := readField page 16 4, learned := readField page 20 4
    valid := (readCell page 3).getLsbD 0, anchor := (readCell page 3).getLsbD 1
    drawn := readField page 24 4 }

def noteCounts (page : Page) : FlushCounts :=
  { committed := readField page 28 1, failed := readField page 29 1, lost := readField page 30 1 }

def noteOverflow (page : Page) : Bool := (readCell page 3).getLsbD 2

/-- Row record i of a note; one whose block or page is out of range is passed over (R188). -/
def noteRow (page : Page) (i : Nat) : Option FailedRow :=
  let block := readField page (32 + 4 * i) 2
  let byte := readField page (34 + 4 * i) 1
  if 32768 ≤ block then none
  else if byte = 255 then some { block := block, page := none }
  else if 128 ≤ byte then none
  else some { block := block, page := some byte }

/-- The rows of a note in list order, at most 16 (R188). -/
def noteRows (page : Page) : List FailedRow :=
  (List.range (min 16 (readField page 31 1))).filterMap (noteRow page)

end Sys2Proof.Machine
end

