-- ==== Sys2Proof/Machine/QueueOps.lean ====
section
/-! DEFINITION. The Hold Queue's shared operations: disposition, the failed-row table, offers, withdrawal, detachment,
loss, and the snoop's composition (chapter 3). -/

namespace Sys2Proof.Machine

/-! ### Entries -/

def Entry.block (e : Entry) : Nat := e.row / 128

def Entry.pageOfRow (e : Entry) : Nat := e.row % 128

/-- The die's entries in acceptance order; the oldest is first (R47). -/
def HoldQueue.oldest (q : HoldQueue) (d : Die) : Option Entry := q.entries.find? (fun e => rowOnDie d e.row)

/-- A function applied to the first entry of the list that lies on the die. -/
def updateOldest (d : Die) (f : Entry → Entry) : List Entry → List Entry
  | [] => []
  | e :: rest => if rowOnDie d e.row then f e :: rest else e :: updateOldest d f rest

/-- The first entry of the list that lies on the die leaves it. -/
def removeOldest (d : Die) : List Entry → List Entry
  | [] => []
  | e :: rest => if rowOnDie d e.row then rest else e :: removeOldest d rest

/-- The kind of an entry's write (R42). -/
def OpKind.toWrite : OpKind → WriteKind
  | .erase => .erase
  | .program => .program
  | .read => .program

/-- The five conditions of a POSTED disposition (R43). -/
def State.postable (s : State) (op : Translated) : Bool :=
  s.drop.hold && op.holdEligible && !op.through && !op.profileFlag && decide (s.queue.postedCount < s.limit)

/-- The entry an END forms (R42, R43, R46). -/
def State.formEntry (s : State) (op : Translated) (row : Nat) : Entry :=
  { kind := op.kind.toWrite, row := row
    disposition := if s.postable op then .posted else .awaiting .attached
    dropTag := if s.drop.hold then some s.drop.current else none
    origin := op.origin, profileFlag := op.profileFlag
    image := match op.kind.toWrite with
      | .program => s.queue.reserved.getD []
      | .erase => []
    progress := .waiting, acceptTick := s.tick }

/-- A reserved slot is freed (R41). -/
def HoldQueue.freeReserved (q : HoldQueue) : HoldQueue := { q with reserved := none }

def detachEntry (e : Entry) : Entry :=
  match e.disposition with
  | .posted => e
  | .awaiting _ => { e with disposition := .awaiting .detached }

/-- The attached AWAITING entry is detached (R54, R55). -/
def HoldQueue.detach (q : HoldQueue) : HoldQueue := { q with entries := q.entries.map detachEntry }

/-- An attached AWAITING entry that is WAITING, which a RESET or LRST withdraws (R54). -/
def Entry.withdrawable (e : Entry) : Bool := e.isAttached && decide (e.progress = .waiting)

/-- The attached AWAITING entry that is WAITING leaves the queue, and the Drop Monitor is told (R54). -/
def State.withdraw (s : State) : State :=
  match s.queue.entries.find? Entry.withdrawable with
  | none => s
  | some e =>
    (s.withQueue { s.queue with entries := s.queue.entries.filter (fun x => !x.withdrawable) }).dropDeparted
      e.dropTag .withdrawn

/-! ### The failed-row table (R57) -/

def FailedRow.covers (r : FailedRow) (row : Nat) : Bool :=
  r.block == row / 128 && (r.page.isNone || r.page == some (row % 128))

/-- Appends a record; a table of 16 loses its oldest first, and the answer says so. -/
def appendFailed (table : List FailedRow) (r : FailedRow) : List FailedRow × Bool :=
  if table.length < 16 then (table ++ [r], false) else (table.drop 1 ++ [r], true)

/-- A row or block is added (R57); the answer's second part is the overflow mark. -/
def addFailed (table : List FailedRow) (r : FailedRow) : List FailedRow × Bool :=
  match r.page with
  | some page =>
    if table.any (fun x => x.block == r.block && (x.page.isNone || x.page == some page)) then (table, false)
    else appendFailed table r
  | none =>
    if table.any (fun x => x.block == r.block && x.page.isNone) then (table, false)
    else if table.any (fun x => x.block == r.block) then
      (table.filter (fun x => x.block != r.block) ++ [r], false)
    else appendFailed table r

/-- A commit that passed makes rows good (R50). -/
def clearFailed (table : List FailedRow) (e : Entry) : List FailedRow :=
  match e.kind with
  | .program => table.filter (fun x => !x.covers e.row)
  | .erase => table.filter (fun x => x.block != e.block)

/-- The record an entry that was not carried out leaves in the table (R51, R55). -/
def Entry.failedRow (e : Entry) : FailedRow :=
  match e.kind with
  | .program => { block := e.block, page := some e.pageOfRow }
  | .erase => { block := e.block, page := none }

/-- Adds a row, and sets the row-list overflow flag on a discard (R57, R138); the answer's second part is the
overflow mark. -/
def State.addFailedRow (s : State) (r : FailedRow) : State × Bool :=
  let added := addFailed s.queue.failedRows r
  ((s.withQueue { s.queue with failedRows := added.1 }).withControl
    { s.control with rowOverflow := s.control.rowOverflow || added.2 }, added.2)

/-- The COMMIT_FAIL record of an entry (R52). -/
def Entry.failRecord (e : Entry) (cause : CommitFailCause) (overflow : Bool) : CommitFailRecord :=
  { kind := e.kind, block := e.block, page := e.failedRow.page, cause := cause, awaiting := !e.isPosted
    origin := e.origin, dropTag := e.dropTag, acceptTick := e.acceptTick, overflow := overflow }

/-- A write the drive controller was not told of has failed or is lost: the table, the record, the Drop Monitor
(R51, R55). -/
def State.reportUnwritten (s : State) (e : Entry) (cause : CommitFailCause) (way : Departure) : State :=
  let added := s.addFailedRow e.failedRow
  (added.1.record (.commitFail (e.failRecord cause added.2))).dropDeparted e.dropTag way

/-- The remaining entries are lost, in acceptance order (R55, R138). -/
def State.loseEntries (s : State) : State :=
  let entries := s.queue.entries
  let counted := s.withControl
    { s.control with counts := { s.control.counts with lost := s.control.counts.lost + entries.length } }
  entries.foldl (fun acc e => acc.reportUnwritten e .lost .lost)
    (counted.withQueue { counted.queue with entries := [] })

/-! ### Offers (R47, R48, R135) -/

/-- The entry the Hold Queue offers for a die: its oldest, while WAITING and while commits are allowed. -/
def State.offer (s : State) (d : Die) : Option Entry :=
  if s.commitsAllowed then
    match s.queue.oldest d with
    | none => none
    | some e => if e.progress = .waiting then some e else none
  else none

/-- In FLUSHING the budget allows the start (R135). -/
def State.budgetAllows (s : State) (e : Entry) : Bool :=
  decide (2 ≤ s.control.budget) &&
  (e.isPosted || !s.queue.entries.any (fun x => x.isPosted && decide (x.progress = .waiting)))

/-- The offer may be granted: the gate is open, and in FLUSHING the budget allows the start (R70, R71). -/
def State.grantable (s : State) (e : Entry) : Bool :=
  s.writeGateOpen && (decide (s.control.state ≠ .flushing) || s.budgetAllows e)

/-! ### The snoop (R59 to R61) -/

/-- The entries younger than the youngest queued ERASE of the row's block; none where there is no such ERASE. -/
def afterErase (block : Nat) : List Entry → Option (List Entry)
  | [] => none
  | e :: rest =>
    match afterErase block rest with
    | some younger => some younger
    | none => if e.kind = .erase ∧ e.block = block then some rest else none

/-- The AND of a base image with the queued PROGRAM images of a row (R61). -/
def composeOver (base : Page) (row : Nat) (entries : List Entry) : Page :=
  (entries.filter (fun e => decide (e.kind = .program) && decide (e.row = row))).foldl
    (fun page e => andPage page e.image) base

/-- The composition at a media read's completion (R60, R61), or over a queued erase (R59). The base is used where no
queued ERASE covers the row. -/
def HoldQueue.composed (q : HoldQueue) (row : Nat) (base : Page) : Page :=
  match afterErase (row / 128) q.entries with
  | some younger => composeOver [] row younger
  | none => composeOver base row q.entries

/-- The failed-row table covers the row (R58). -/
def HoldQueue.covered (q : HoldQueue) (row : Nat) : Bool := q.failedRows.any (fun r => r.covers row)

end Sys2Proof.Machine
end

