-- ==== Sys2Proof/Machine/Service.lean ====
section
/-! DEFINITION. The Service Controller's sequences: start-up, the scans, the OPENED note, line reset, the end of the
flush, SPENT and dip recovery (chapters 7 and 9). A step of a sequence makes its next service request; Machine/Grant.lean
grants it. -/

namespace Sys2Proof.Machine

/-! ### Requests -/

/-- The Service Controller makes a service request (R66). -/
def State.request (s : State) (op : ServiceOp) : State :=
  s.withMedia { s.media with services := s.media.services ++ [{ op := op, standing := .awaited }] }

/-- A note erase or note program (R66). -/
def ServiceOp.isNoteWrite : ServiceOp → Bool
  | .probe _ => false
  | .profileRead _ => false
  | .noteRead _ => false
  | .noteErase => true
  | .openedNote => true
  | .flushNote _ => true

/-- An awaited request takes another standing; one no longer awaited keeps its own. -/
def ServiceRequest.restand (standing : Standing) (r : ServiceRequest) : ServiceRequest :=
  match r.standing with
  | .awaited => { r with standing := standing }
  | .noteOnly => r
  | .disregarded => r

def DieRecord.restand (standing : Standing) (d : DieRecord) : DieRecord :=
  match d.state with
  | .idle => d
  | .offline => d
  | .busy op =>
    match op.requester with
    | .front _ => d
    | .commit => d
    | .service r => { d with state := .busy { op with requester := .service (r.restand standing) } }

/-- The requests waiting and in progress are no longer awaited (R132, R133, R148). -/
def Scheduler.restand (m : Scheduler) (standing : Standing) : Scheduler :=
  { m with services := m.services.map (ServiceRequest.restand standing)
           dies := m.dies.map (DieRecord.restand standing) }

/-- The note writes that still wait are withdrawn (R66). -/
def Scheduler.withdrawNotes (m : Scheduler) : Scheduler :=
  { m with services := m.services.filter (fun r => !r.op.isNoteWrite) }

/-! ### The note block (R140, R143) -/

/-- The physical row of a page of the note block, physical block 1. -/
def noteRow1 (page : Nat) : Nat := 128 + page

/-- The note block becomes unusable for the rest of the session (R143). -/
def State.loseNote (s : State) : State := s.withControl { s.control with noteUsable := false }

/-- A note write uses the next note page (R140). -/
def State.useNotePage (s : State) : State :=
  s.withControl { s.control with nextNotePage := s.control.nextNotePage.map (· + 1) }

/-- Whether fewer than two erased pages remain (R140). -/
def State.noteNearlyFull (s : State) : Bool :=
  match s.control.nextNotePage with
  | none => false
  | some page => decide (127 ≤ page)

/-- The OPENED note: the block is erased first where fewer than two erased pages remain (R140, R146, R178). -/
def State.openNote (s : State) (opening : Opening) : State :=
  if s.noteNearlyFull then (s.withSequence (.openedErase opening)).request .noteErase
  else (s.withSequence (.openedProgram opening)).request .openedNote

/-! ### START records and entering SERVICE (R180, R147, R36, R37) -/

def State.startRecord (s : State) (info : StartInfo) : State :=
  s.record (.start
    { cause := info.cause, notePage := info.notePage, counts := info.counts, flushNote := none
      rows := info.rows, drained := none, answering := s.answering, noteFault := !s.control.noteUsable
      eventTick := none })

def State.dipRecord (s : State) : State :=
  s.record (.start
    { cause := .dipRecovery, notePage := none
      counts := s.control.flushNote.map (fun _ => s.control.counts)
      flushNote := s.control.flushNote, rows := none, drained := none, answering := s.answering
      noteFault := !s.control.noteUsable, eventTick := some s.control.dipStart })

def State.lineRecord (s : State) : State :=
  s.record (.start
    { cause := .lineReset, notePage := none, counts := none, flushNote := none, rows := none
      drained := some s.control.lineReset, answering := s.answering, noteFault := !s.control.noteUsable
      eventTick := some s.control.lrstTick })

/-- The service state becomes SERVICE and the sequence has ended. -/
def State.enterService (s : State) : State := (s.withSequence .none).withServiceState .service

/-- The front returns to IDLE with FAIL, REFUSED and POSTED cleared (R37). -/
def FrontPort.cleared (f : FrontPort) : FrontPort :=
  { f with state := .idle, fail := false, refused := false, posted := false }

/-- What follows the OPENED note, or its absence: start-up steps 8 and 9 (R170), recovery steps 5 to 7 (R145). -/
def State.finishOpening (s : State) (opening : Opening) : State :=
  match opening with
  | .startUp info => (s.startRecord info).enterService
  | .dipRecovery =>
    let recorded := s.dipRecord
    (recorded.withFront recorded.front.cleared).enterService

/-- The OPENED note where the note block is usable, else what follows it (R170 step 7, R145 step 4). -/
def State.openOrFinish (s : State) (opening : Opening) : State :=
  if s.control.noteUsable then s.openNote opening else s.finishOpening opening

/-! ### The note scan and its outcome (R176, R177) -/

/-- The two counters are loaded (R103, R153). -/
def State.loadCounters (s : State) (dropBase sequenceBase : Tick) : State :=
  ((s.withDrop (s.drop.load dropBase)).withReport (s.report.load sequenceBase)).reportDrops

/-- The rows of a note join the table, each as R57 gives (R58). -/
def State.loadRows (s : State) (rows : List FailedRow) : State :=
  rows.foldl (fun acc r => (acc.addFailedRow r).1) s

/-- A FLUSH note in a usable block: the start is clean (R177). -/
def State.cleanStart (s : State) (page : Nat) (image : Page) : State :=
  let loaded := s.loadCounters (noteDropCounter image) (noteSequence image)
  let restored := (loaded.withGauge (loaded.gauge.restore (noteGauge image))).endGaugeHold
  let rows := restored.loadRows (noteRows image)
  let marked := rows.withControl
    { rows.control with rowOverflow := rows.control.rowOverflow || noteOverflow image }
  marked.openOrFinish
    (.startUp
      { cause := .powerOnClean, notePage := some page, counts := some (noteCounts image)
        rows := some { count := marked.queue.failedRows.length, overflow := noteOverflow image } })

/-- Any other latest valid note: the start is unclean (R177). -/
def State.uncleanStart (s : State) (page : Nat) (image : Page) : State :=
  ((s.loadCounters (noteDropCounter image) (noteSequence image)).endGaugeHold).openOrFinish
    (.startUp { cause := .powerOnUnclean, notePage := some page, counts := none, rows := none })

/-- No valid note (R177). -/
def State.noNoteStart (s : State) : State :=
  ((s.loadCounters 0 0).endGaugeHold).openOrFinish
    (.startUp { cause := .powerOnNoNote, notePage := none, counts := none, rows := none })

/-- Start-up step 6 (R177). -/
def State.settleNote (s : State) (best : Option (Nat × Page)) : State :=
  match best with
  | none => s.noNoteStart
  | some (page, image) =>
    if noteIsFlush image && s.control.noteUsable then s.cleanStart page image else s.uncleanStart page image

/-- Start-up step 5 begins: the scan, or no page read where die 0 is not IDLE (R170, R176). -/
def State.beginNoteScan (s : State) : State :=
  if s.die 0 = .idle then (s.withSequence (.noteScan 0 none)).request (.noteRead 0)
  else s.loseNote.settleNote none

/-- A page of the note block has been read with pass (R176). -/
def State.noteScanned (s : State) (page : Nat) (best : Option (Nat × Page)) (data : Page) : State :=
  if isErased data then
    (s.withControl { s.control with nextNotePage := some page }).settleNote best
  else
    let latest := if notePageOk data then some (page, data) else best
    if 127 ≤ page then (s.withControl { s.control with nextNotePage := some 128 }).settleNote latest
    else (s.withSequence (.noteScan (page + 1) latest)).request (.noteRead (page + 1))

/-! ### The profile scan (R172) -/

/-- Start-up step 4: the dies the start-up apply has brought within the installed count, ascending (R170). -/
def addedDies (installed : Nat) : List Die := allDies.filter (fun d => decide (1 ≤ d.val) && decide (d.val < installed))

/-- Start-up goes on after step 3 with the dies to be probed (R170 steps 4 and 5). -/
def State.probeNext (s : State) (dies : List Die) : State :=
  match dies with
  | [] => s.beginNoteScan
  | d :: rest => (s.withSequence (.probeAdded rest)).request (.probe d)

/-- The end of a scan of the profile block (R170 step 3, R183). -/
def State.scanEnded (s : State) (purpose : ScanFor) (result : ScanResult) : State :=
  match purpose with
  | .startUp =>
    let applied := s.applyAtStartUp result
    applied.probeNext (addedDies applied.control.installed)
  | .lineReset => ((s.applyAtLineReset result).lineRecord).enterService

/-- The scan's result from the highest page that passed and the failed count (R172). -/
def scanResult (best : Option (Nat × Page)) (failed : Nat) : ScanResult :=
  match best with
  | none => .nothing failed
  | some (page, image) => .found page image failed

/-- The scan begins at page 0; with die 0 not to be read it ends unread (R170 step 2, R172, R183). -/
def State.beginScan (s : State) (purpose : ScanFor) : State :=
  let readable : Bool :=
    match purpose with
    | .startUp => decide (s.die 0 = .idle)
    | .lineReset => decide (s.die 0 ≠ .offline)
  if readable then (s.withSequence (.profileScan purpose 0 none 0)).request (.profileRead 0)
  else s.scanEnded purpose .unread

/-- The scan goes on to the next page, or ends at page 127 (R172). -/
def State.scanOn (s : State) (purpose : ScanFor) (page : Nat) (best : Option (Nat × Page)) (failed : Nat) : State :=
  if 127 ≤ page then s.scanEnded purpose (scanResult best failed)
  else (s.withSequence (.profileScan purpose (page + 1) best failed)).request (.profileRead (page + 1))

/-- A page of the profile block has been read with pass (R172). -/
def State.profileScanned (s : State) (purpose : ScanFor) (page : Nat) (best : Option (Nat × Page)) (failed : Nat)
    (data : Page) : State :=
  if isErased data then s.scanEnded purpose (scanResult best failed)
  else if profilePageOk data then s.scanOn purpose page (some (page, data)) 0
  else s.scanOn purpose page best (failed + 1)

/-! ### Line reset (R182, R183) -/

/-- The next probe of the line reset, or the wait for the queue (R182, R183). -/
def State.lineProbeNext (s : State) (dies : List Die) : State :=
  match dies with
  | [] => s.withSequence .lineWait
  | d :: rest => (s.withSequence (.lineProbe rest)).request (.probe d)

/-! ### Dip recovery and SPENT (R144, R145, R149) -/

/-- Step 1: the counters are loaded with base 0 where they have not been loaded (R145). -/
def State.recoverCounters (s : State) : State := if s.drop.loaded then s else s.loadCounters 0 0

/-- Step 2: the defaults where no apply has been made in the session, which is while ATTN is masked (R145, R149). -/
def State.recoverSettings (s : State) : State :=
  if s.report.masked then s.recoveryApply else s

/-- Every drop of the table gains the POWER_DIP mark (R104). -/
def DropMonitor.markDip (d : DropMonitor) : DropMonitor :=
  { d with pending := d.pending.map (fun x => { x with powerDip := true }) }

/-- Step 3: the open drop closes and the pending drops are reported, with the POWER_DIP mark (R104, R145). -/
def State.recoverDrops (s : State) : State :=
  let marked := s.drop.markDip
  (s.withDrop (if marked.hold then marked.close s.tick false else marked)).reportDrops

/-- A dip recovery begins (R145). -/
def State.beginRecovery (s : State) : State :=
  s.recoverCounters.recoverSettings.recoverDrops.openOrFinish .dipRecovery

/-- The service state becomes SPENT, and SUPGOOD is read (R144). -/
def State.enterSpent (s : State) : State :=
  let spent := (s.withSequence .none).withServiceState .spent
  if spent.pins.supgood then spent.beginRecovery else spent

/-- Start-up stops (R133). -/
def State.stopStartUp (s : State) : State :=
  let withdrawn := s.withMedia (s.media.withdrawNotes.restand .disregarded)
  let noted := withdrawn.withControl
    { withdrawn.control with
      noteUsable := withdrawn.control.noteUsable && withdrawn.control.nextNotePage.isSome
      dipStart := s.tick }
  (noted.endGaugeHold).enterSpent

/-- A dip recovery stops (R148). -/
def State.stopRecovery (s : State) : State :=
  (s.withMedia (s.media.withdrawNotes.restand .noteOnly)).withSequence .none

/-! ### The flush (R132, R137, R141) -/

/-- The flush note outcome is settled and the state becomes SPENT. -/
def State.endFlush (s : State) (outcome : FlushNoteOutcome) : State :=
  (s.withControl { s.control with flushNote := some outcome }).enterSpent

/-- A commit is in progress (R137). -/
def HoldQueue.committing (q : HoldQueue) : Bool := q.entries.any (fun e => decide (e.progress = .committing))

/-- The drain has ended (R137). -/
def State.drainEnded (s : State) : Bool :=
  decide (s.queue.entries = []) || (decide (s.control.budget ≤ 1) && !s.queue.committing)

/-- The end of the drain: losses, then the note (R137). -/
def State.endDrain (s : State) : State :=
  let lost := s.loseEntries
  if lost.control.noteUsable && decide (1 ≤ lost.control.budget) then
    (lost.withSequence .flushNote).request (.flushNote lost.composeFlushNote)
  else lost.endFlush .skipped

/-! ### Results of service operations (R72, R143, R148) -/

/-- The result of a media operation, with the bytes of a READ that gave some. -/
inductive MediaResult where
  | pass (data : Page)
  | fail (cause : FailCause)
  deriving DecidableEq, Repr

def MediaResult.passed : MediaResult → Bool
  | .pass _ => true
  | .fail _ => false

/-- What a note write's result does to the note state (R140, R143). -/
def State.noteWritten (s : State) (op : ServiceOp) (result : MediaResult) : State :=
  match result with
  | .fail _ => s.loseNote
  | .pass _ =>
    match op with
    | .noteErase => s.withControl { s.control with nextNotePage := some 0 }
    | .probe _ => s
    | .profileRead _ => s
    | .noteRead _ => s
    | .openedNote => s
    | .flushNote _ => s

/-- A note write of a stopped recovery has completed (R148). Where it makes the block unusable under a recovery
begun again, whose own note write waits behind it, that write is withdrawn and the recovery goes on (R143, log
entry 25). -/
def State.oldNoteWritten (s : State) (op : ServiceOp) (result : MediaResult) : State :=
  let noted := s.noteWritten op result
  match noted.control.sequence with
  | .openedErase opening =>
    if noted.control.noteUsable then noted
    else (noted.withMedia noted.media.withdrawNotes).finishOpening opening
  | .openedProgram opening =>
    if noted.control.noteUsable then noted
    else (noted.withMedia noted.media.withdrawNotes).finishOpening opening
  | .none => noted
  | .settling _ => noted
  | .probeDieZero => noted
  | .profileScan _ _ _ _ => noted
  | .probeAdded _ => noted
  | .noteScan _ _ => noted
  | .lineProbe _ => noted
  | .lineWait => noted
  | .drain => noted
  | .flushNote => noted

/-- An awaited result moves the sequence on. -/
def State.sequenceResult (s : State) (op : ServiceOp) (result : MediaResult) : State :=
  match s.control.sequence with
  | .none => s
  | .settling _ => s
  | .probeDieZero => s.beginScan .startUp
  | .profileScan purpose page best failed =>
    match result with
    | .pass data => s.profileScanned purpose page best failed data
    | .fail .media => s.scanOn purpose page best (failed + 1)
    | .fail .timeout => s.scanEnded purpose .unread
    | .fail .offline => s.scanEnded purpose .unread
  | .probeAdded rest => s.probeNext rest
  | .noteScan page best =>
    match result with
    | .pass data => s.noteScanned page best data
    | .fail _ => s.loseNote.settleNote best
  | .openedErase opening => (s.noteWritten op result).openOrFinish opening
  | .openedProgram opening => (s.noteWritten op result).finishOpening opening
  | .lineProbe rest => s.lineProbeNext rest
  | .lineWait => s
  | .drain => s
  | .flushNote => (s.noteWritten op result).endFlush (if result.passed then .written else .failed)

/-- The Service Controller is handed a result (R72). -/
def State.serviceDone (s : State) (request : ServiceRequest) (result : MediaResult) : State :=
  match request.standing with
  | .awaited => s.sequenceResult request.op result
  | .noteOnly => s.oldNoteWritten request.op result
  | .disregarded => s

end Sys2Proof.Machine
end

