-- ==== Sys2Proof/Machine/Grant.lean ====
section
/-! DEFINITION. The Die Scheduler's shared operations: starting a media operation, handing its result on, failing requests at
an OFFLINE die, granting, and taking every consequence of one event (chapter 4). -/

namespace Sys2Proof.Machine

/-! ### Starting an operation -/

/-- The die becomes BUSY and the command transfer becomes ready (R67). -/
def State.startMedia (s : State) (d : Die) (kind : MediaKind) (row : Option Nat) (image : Page)
    (requester : Requester) : State :=
  s.withDie d (.busy { kind := kind, row := row, image := image, requester := requester, phase := .command })

/-- The front read is granted (R67, R68). -/
def State.startFront (s : State) (d : Die) (row : Nat) : State :=
  (s.withMedia { s.media with frontRead := none }).startMedia d .read (some row) [] (.front false)

def commitEntry (e : Entry) : Entry := { e with progress := .committing }

/-- The media operation of an entry (R49). -/
def WriteKind.media : WriteKind → MediaKind
  | .program => .program
  | .erase => .erase

/-- A start in FLUSHING takes one unit of the budget (R135, R141). -/
def State.spendUnit (s : State) : State :=
  if s.control.state = .flushing then s.withControl { s.control with budget := s.control.budget - 1 } else s

/-- The commit starts (R49); the patience counter returns to 0 (R69), and in FLUSHING a unit is taken (R135). -/
def State.startCommit (s : State) (d : Die) (e : Entry) : State :=
  let marked := s.withQueue { s.queue with entries := updateOldest d commitEntry s.queue.entries }
  ((marked.spendUnit).withPatience d 0).startMedia d e.kind.media (some e.row) e.image .commit

/-- A service request is no longer waiting. -/
def State.takeRequest (s : State) (r : ServiceRequest) : State :=
  s.withMedia { s.media with services := s.media.services.erase r }

/-- The die a service operation is for; the profile and note blocks lie on die 0 (R66). -/
def ServiceOp.die : ServiceOp → Die
  | .probe d => d
  | .profileRead _ => 0
  | .noteRead _ => 0
  | .noteErase => 0
  | .openedNote => 0
  | .flushNote _ => 0

/-- The media operation of a service operation (R66). -/
def ServiceOp.media : ServiceOp → MediaKind
  | .probe _ => .reset
  | .profileRead _ => .read
  | .noteRead _ => .read
  | .noteErase => .erase
  | .openedNote => .program
  | .flushNote _ => .program

/-- The physical row of a service operation: blocks 0 and 1; a note program's is the next note page (R140). -/
def State.serviceRow (s : State) : ServiceOp → Option Nat
  | .probe _ => none
  | .profileRead page => some page
  | .noteRead page => some (noteRow1 page)
  | .noteErase => some (noteRow1 0)
  | .openedNote => some (noteRow1 (s.control.nextNotePage.getD 0))
  | .flushNote _ => some (noteRow1 (s.control.nextNotePage.getD 0))

/-- A granted service operation starts. An OPENED note carries the counters as they stand at the grant (R146); a
FLUSH note takes its unit, or is refused with the budget at 0 (R141). -/
def State.startService (s : State) (d : Die) (r : ServiceRequest) : State :=
  let taken := s.takeRequest r
  match r.op with
  | .probe _ => taken.startMedia d .reset none [] (.service r)
  | .profileRead _ => taken.startMedia d .read (s.serviceRow r.op) [] (.service r)
  | .noteRead _ => taken.startMedia d .read (s.serviceRow r.op) [] (.service r)
  | .noteErase => taken.startMedia d .erase (s.serviceRow r.op) [] (.service r)
  | .openedNote =>
    (taken.startMedia d .program (s.serviceRow r.op) s.composeOpenedNote (.service r)).useNotePage
  | .flushNote image =>
    if s.control.budget = 0 then taken.endFlush .skipped
    else ((taken.startMedia d .program (s.serviceRow r.op) image (.service r)).useNotePage).spendUnit

/-! ### Results -/

/-- Every failed READ, PROGRAM or ERASE counts (R39). -/
def State.countFailure (s : State) : State :=
  s.withMedia { s.media with mediaFailures := satAdd 65535 s.media.mediaFailures 1 }

/-- The front read completes: the page is composed and delivered, FAIL set by the media result or the failed-row
table (R27, R60, R61). -/
def State.deliver (s : State) (row column : Nat) (base : Page) (failed : Bool) : State :=
  s.withFront
    { s.front with
      state := .delivering (pageBytes (s.queue.composed row base) column (4224 - column))
      fail := failed || s.queue.covered row
      statusSelected := false }

/-- The snoop is handed a media result; a failure with no bytes composes on 0xFF (R60). -/
def State.frontReadDone (s : State) (base : Page) (failed : Bool) : State :=
  match s.front.state with
  | .loading row column => s.deliver row column base failed
  | .idle => s
  | .addressing _ _ => s
  | .delivering _ => s
  | .receiving _ _ => s
  | .awaiting => s

/-- An entry has left with this result: the flush counts in FLUSHING, the line-reset counts in LINE_RESET (R138,
R182). -/
def State.countLeaving (s : State) (passed : Bool) : State :=
  match s.control.state with
  | .flushing =>
    if passed then
      s.withControl { s.control with counts := { s.control.counts with committed := s.control.counts.committed + 1 } }
    else s.withControl { s.control with counts := { s.control.counts with failed := s.control.counts.failed + 1 } }
  | .lineReset =>
    if passed then
      s.withControl
        { s.control with lineReset := { s.control.lineReset with committed := s.control.lineReset.committed + 1 } }
    else
      s.withControl
        { s.control with lineReset := { s.control.lineReset with failed := s.control.lineReset.failed + 1 } }
  | .starting => s
  | .service => s
  | .spent => s

/-- The front is released from AWAITING: an attached entry reports its result, a detached one only ends the wait
(R31, R35, R50, R51). -/
def State.releaseFront (s : State) (e : Entry) (passed : Bool) : State :=
  match e.disposition with
  | .posted => s
  | .awaiting .attached => s.withFront { s.front with state := .idle, fail := !passed }
  | .awaiting .detached => if s.front.state = .awaiting then s.withFrontState .idle else s

/-- A profile-flagged PROGRAM that committed is applied (R53, R181). -/
def State.applyCommitted (s : State) (e : Entry) : State :=
  if e.profileFlag ∧ e.kind = .program then s.serviceApply e.image e.pageOfRow else s

/-- The Drop Monitor is told and the profile image handed on; where both could produce a record the order is open
(R152, log entry 8). -/
def State.afterPass (s : State) (e : Entry) : State :=
  if e.profileFlag ∧ e.kind = .program ∧ e.dropTag ≠ none then
    let chosen := s.withFree (s.free + 1)
    if Config.freePick s.free % 2 = 0 then (chosen.dropDeparted e.dropTag .committed).applyCommitted e
    else (chosen.applyCommitted e).dropDeparted e.dropTag .committed
  else (s.dropDeparted e.dropTag .committed).applyCommitted e

/-- A commit that passed: the entry, already out of the queue, makes rows good (R50). -/
def State.passCommit (s : State) (e : Entry) : State :=
  let cleared := s.withQueue { s.queue with failedRows := clearFailed s.queue.failedRows e }
  ((cleared.countLeaving true).releaseFront e true).afterPass e

def FailCause.toCommitFail : FailCause → CommitFailCause
  | .media => .media
  | .timeout => .timeout
  | .offline => .offline

/-- A commit that failed (R51). -/
def State.failCommit (s : State) (e : Entry) (cause : FailCause) : State :=
  let released := (s.countLeaving false).releaseFront e false
  if e.isAttached then released.dropDeparted e.dropTag .failed
  else released.reportUnwritten e cause.toCommitFail .failed

/-- The commit at a die has completed: its entry is the die's oldest (R50, R51). -/
def State.commitDone (s : State) (d : Die) (result : MediaResult) : State :=
  match s.queue.oldest d with
  | none => s
  | some e =>
    let left := s.withQueue { s.queue with entries := removeOldest d s.queue.entries }
    match result with
    | .pass _ => left.passCommit e
    | .fail cause => left.failCommit e cause

/-- The result goes to its requester (R72); an abandoned front read's is discarded (R78). -/
def State.handResult (s : State) (d : Die) (requester : Requester) (result : MediaResult) (data : Page) : State :=
  match requester with
  | .front true => s
  | .front false => s.frontReadDone data (!result.passed)
  | .commit => s.commitDone d result
  | .service r => s.serviceDone r result

/-! ### Requests waiting for a die -/

/-- A front read waits for the die (R66). -/
def State.frontFor (s : State) (d : Die) : Option Nat :=
  match s.media.frontRead with
  | none => none
  | some row => if rowOnDie d row then some row else none

/-- The service operation may be granted: a program or erase waits for the gate (R70). -/
def State.serviceUngated (s : State) (r : ServiceRequest) : Bool := !r.op.media.isWrite || s.writeGateOpen

def ServiceOp.isProbe : ServiceOp → Bool
  | .probe _ => true
  | .profileRead _ => false
  | .noteRead _ => false
  | .noteErase => false
  | .openedNote => false
  | .flushNote _ => false

/-- What an IDLE die is granted to (R67, R68). -/
inductive Grant where
  | service (request : ServiceRequest)
  | front (row : Nat) (contested : Bool)
  | commit (entry : Entry)
  deriving DecidableEq, Repr

/-- The order of R68: a service operation; then, with a front read and a commit both waiting, the patience counter;
then whichever waits. -/
def State.grantFor (s : State) (d : Die) : Option Grant :=
  match s.media.services.find? (fun r => decide (r.op.die = d) && !r.op.isProbe && s.serviceUngated r) with
  | some r => some (.service r)
  | none =>
    match s.frontFor d, (s.offer d).filter s.grantable with
    | some row, some e =>
      if (s.media.dies.get d).patience < s.control.settings.patience then some (.front row true)
      else some (.commit e)
    | some row, none => some (.front row false)
    | none, some e => some (.commit e)
    | none, none => none

/-- One internal consequence of an event. -/
inductive Action where
  | grant (die : Die) (what : Grant)
  | startProbe (request : ServiceRequest)
  | passProbe (request : ServiceRequest)
  | failService (request : ServiceRequest)
  | failFront (row : Nat)
  | failCommit (die : Die)
  deriving DecidableEq, Repr

/-- The grant an IDLE die can be given now. -/
def State.grantAction (s : State) (d : Die) : Option Action :=
  match s.die d with
  | .idle => (s.grantFor d).map (Action.grant d)
  | .busy _ => none
  | .offline => none

/-- The service requests for the die that are settled without a grant of R68: a probe of a die that is not OFFLINE passes
at once and any other request aimed at an OFFLINE die fails at once (R75, R77). -/
def State.serviceAction (s : State) (d : Die) (r : ServiceRequest) : Option Action :=
  if r.op.die = d then
    match s.die d with
    | .offline => if r.op.isProbe then some (.startProbe r) else some (.failService r)
    | .idle => if r.op.isProbe then some (.passProbe r) else none
    | .busy _ => if r.op.isProbe then some (.passProbe r) else none
  else none

/-- What can be settled at once at a die without granting it (R75, R77). -/
def State.onceActions (s : State) (d : Die) : List Action :=
  s.media.services.filterMap (s.serviceAction d) ++
  (match s.die d with
   | .offline =>
     (match s.frontFor d with | none => [] | some row => [Action.failFront row]) ++
     (match s.offer d with | none => [] | some _ => [Action.failCommit d])
   | .idle => []
   | .busy _ => [])

/-- Carries one consequence out. -/
def State.perform (s : State) (a : Action) : State :=
  match a with
  | .grant d (.service r) => s.startService d r
  | .grant d (.front row contested) =>
    if contested then (s.withPatience d ((s.media.dies.get d).patience + 1)).startFront d row
    else s.startFront d row
  | .grant d (.commit e) => s.startCommit d e
  | .startProbe r => s.startService r.op.die r
  | .passProbe r => (s.takeRequest r).serviceDone r (.pass [])
  | .failService r => ((s.takeRequest r).countFailure).serviceDone r (.fail .offline)
  | .failFront _ => ((s.withMedia { s.media with frontRead := none }).countFailure).frontReadDone [] true
  | .failCommit d => (s.countFailure).commitDone d (.fail .offline)

/-- Where the order of several grants cannot be seen: outside FLUSHING, and in FLUSHING while the budget covers them
all (R134, R135). -/
def State.orderFree (s : State) (grants : List Action) : Bool :=
  decide (s.control.state ≠ .flushing) || decide (grants.length < s.control.budget)

/-- Picks one of several consequences for which the manual gives no order (log entry 8). -/
def State.performPicked (s : State) (a : Action) (rest : List Action) : State :=
  match rest with
  | [] => s.perform a
  | _ :: _ =>
    let all := a :: rest
    (s.withFree (s.free + 1)).perform (all.getD (Config.freePick s.free % all.length) a)

/-- The Service Controller's own conditions: the line reset's wait and the flush's drain (R183, R137). -/
def State.sequenceAction (s : State) : Option State :=
  match s.control.sequence with
  | .lineWait => if s.queue.entries = [] then some (s.beginScan .lineReset) else none
  | .drain => if s.drainEnded then some s.endDrain else none
  | .none => none
  | .settling _ => none
  | .probeDieZero => none
  | .profileScan _ _ _ _ => none
  | .probeAdded _ => none
  | .noteScan _ _ => none
  | .openedErase _ => none
  | .openedProgram _ => none
  | .lineProbe _ => none
  | .flushNote => none

/-- One consequence, if any is left: grants first, then what fails or passes at once, then the Service Controller's
conditions. -/
def State.micro (s : State) : Option State :=
  match allDies.filterMap s.grantAction with
  | a :: rest => if s.orderFree (a :: rest) then some (s.perform a) else some (s.performPicked a rest)
  | [] =>
    match allDies.flatMap s.onceActions with
    | a :: rest => some (s.performPicked a rest)
    | [] => s.sequenceAction

/-- Takes consequences until none is left, at most `fuel` of them. -/
def pump : Nat → State → State
  | 0, s => s
  | fuel + 1, s =>
    match s.micro with
    | none => s
    | some next => pump fuel next

/-! The consequences that are left: a number that every consequence makes smaller. -/

/-- A request that is settled, with what its result may ask for in its place. -/
def ServiceOp.load : ServiceOp → Nat
  | .probe _ => 2
  | .profileRead _ => 1
  | .noteRead _ => 1
  | .noteErase => 1
  | .openedNote => 1
  | .flushNote _ => 2

/-- The requests that a sequence may still make. -/
def Sequence.load : Sequence → Nat
  | .none => 0
  | .settling _ => 0
  | .probeDieZero => 11
  | .profileScan _ _ _ _ => 10
  | .probeAdded rest => 2 + 2 * rest.length
  | .noteScan _ _ => 1
  | .openedErase _ => 0
  | .openedProgram _ => 0
  | .lineProbe rest => 12 + 2 * rest.length
  | .lineWait => 12
  | .drain => 4
  | .flushNote => 1

/-- A die that is not BUSY can be given one operation more. -/
def DieState.free : DieState → Nat
  | .idle => 1
  | .offline => 1
  | .busy _ => 0

/-- The dies, entries and requests that a consequence can be about. -/
def State.requests (s : State) : Nat :=
  (s.die 0).free + (s.die 1).free + (s.die 2).free + (s.die 3).free + s.queue.entries.length +
  s.media.frontRead.isSome.toNat + (s.media.services.map (fun r => r.op.load)).sum

/-- As many consequences as can be left, or more. -/
def State.fuel (s : State) : Nat := s.requests + s.control.sequence.load

/-- The transfers that have become ready join those that have the lines or wait for them, in ascending die number
(R65). -/
def State.handLines (s : State) : State :=
  s.withMedia
    { s.media with
      lines := s.media.lines ++
        allDies.filter (fun d => (s.die d).inTransfer && !s.media.lines.contains d) }

/-- Every consequence of the event is taken, and the lines are handed on. -/
def State.settled (s : State) : State := (pump s.fuel s).handLines

end Sys2Proof.Machine
end

