-- ==== Sys2Proof/Machine/Front.lean ====
section
/-! DEFINITION. The commands of the front store bus: READ, PROGRAM, ERASE, STATUS, RESET, UNKNOWN_OPERATION_BYTE,
ADDRESS_BYTE, DATA_BYTE, READ_STROBE and END (chapters 2, 3 and 8). -/

namespace Sys2Proof.Machine

/-! ### Refusals (R25, R26) -/

def RefusalCounters.bump (c : RefusalCounters) (cause : RefusalCause) : RefusalCounters :=
  match cause with
  | .sequence => { c with sequence := satAdd 65535 c.sequence 1 }
  | .qualifier => { c with qualifier := satAdd 65535 c.qualifier 1 }
  | .address => { c with address := satAdd 65535 c.address 1 }
  | .closed => { c with closed := satAdd 65535 c.closed 1 }
  | .service => { c with service := satAdd 65535 c.service 1 }
  | .state => { c with state := satAdd 65535 c.state 1 }

/-- The causes that are passed to Report Memory (R25, R154). -/
def RefusalCause.recorded : RefusalCause → Option RecordedCause
  | .sequence => none
  | .qualifier => none
  | .address => some .address
  | .closed => some .closed
  | .service => some .service
  | .state => none

/-- REFUSED is set and the cause counted (R25). -/
def FrontPort.refuse (f : FrontPort) (cause : RefusalCause) : FrontPort :=
  { f with refused := true, counters := f.counters.bump cause }

/-- A refusal of an operation with its row (R25, R155). -/
def State.refuse (s : State) (cause : RefusalCause) (op : OpKind) (row : BitVec 24) (absolute : Bool) : State :=
  let counted := s.withFront (s.front.refuse cause)
  match cause.recorded with
  | none => counted
  | some recorded =>
    counted.withReport
      (counted.report.refuse counted.control.settings.mask recorded op row absolute counted.tick)

/-! ### Ending what is in progress -/

/-- A write in RECEIVING is abandoned: its reserved slot is freed, a consumption write's image discarded (R22, R41). -/
def State.dropReceiving (s : State) : State :=
  ((s.withQueue s.queue.freeReserved).withReport { s.report with consumption := none }).withFrontState .idle

/-- The transaction in progress ends (R22); a pending READ or entry is no transaction that a byte ends (R23). -/
def State.endTransaction (s : State) : State :=
  match s.front.state with
  | .idle => s
  | .addressing _ _ => s.withFrontState .idle
  | .delivering _ => s.withFrontState .idle
  | .receiving _ _ => s.dropReceiving
  | .loading _ _ => s
  | .awaiting => s

def DieRecord.abandon (r : DieRecord) : DieRecord :=
  match r.state with
  | .idle => r
  | .offline => r
  | .busy op =>
    match op.requester with
    | .front _ => { r with state := .busy { op with requester := .front true } }
    | .commit => r
    | .service _ => r

/-- The front read is abandoned: withdrawn while it waits, marked while it is in progress (R62, R78). -/
def State.abandonRead (s : State) : State :=
  s.withMedia { s.media with frontRead := none, dies := s.media.dies.map DieRecord.abandon }

/-- The status output is deselected (R33). -/
def State.deselect (s : State) : State := s.withFront { s.front with statusSelected := false }

/-- The front holds a pending READ or an AWAITING entry (R23). -/
def FrontState.isPending : FrontState → Bool
  | .idle => false
  | .addressing _ _ => false
  | .loading _ _ => true
  | .delivering _ => false
  | .receiving _ _ => false
  | .awaiting => true

/-! ### Operation bytes -/

/-- A refusal at the operation byte, whose causes STATE and SEQUENCE are not recorded (R25). -/
def State.refuseByte (s : State) (cause : RefusalCause) : State := s.withFront (s.front.refuse cause)

/-- A READ, PROGRAM or ERASE byte (R21, R22, R23, R25, R33). -/
def State.takeOperation (s : State) (kind : OpKind) : State :=
  if s.frontIgnored then s
  else
    let taken := s.deselect
    if s.frontClosed then taken.refuseByte .state
    else if s.front.state.isPending then taken.refuseByte .sequence
    else taken.endTransaction.withFrontState (.addressing kind [])

/-- READ (R19, R27). -/
def execRead (s : State) : Host.Outcome State Fault Refusal := .next (s.takeOperation .read)

/-- PROGRAM (R19, R29). -/
def execProgram (s : State) : Host.Outcome State Fault Refusal := .next (s.takeOperation .program)

/-- ERASE (R19, R29). -/
def execErase (s : State) : Host.Outcome State Fault Refusal := .next (s.takeOperation .erase)

/-- The status output is selected (R33). -/
def State.select (s : State) : State := s.withFront { s.front with statusSelected := true }

/-- STATUS (R33): it ends a transaction that can be ended, and is answered but in FLUSHING and SPENT. -/
def execStatus (s : State) : Host.Outcome State Fault Refusal :=
  .next
    (if s.frontIgnored then s
     else if s.front.state.isPending then s.select
     else s.endTransaction.select)

/-- The latched fields are cleared and the status output deselected (R34). -/
def FrontPort.clearLatched (f : FrontPort) : FrontPort :=
  { f with fail := false, refused := false, posted := false, statusSelected := false }

/-- RESET with the front in AWAITING (R35): an attached entry still WAITING is withdrawn and the front becomes IDLE; one
COMMITTING is detached and the front waits on. -/
def State.resetAwaiting (s : State) : State :=
  if s.queue.entries.any Entry.withdrawable then s.withdraw.withFrontState .idle
  else s.withQueue s.queue.detach

/-- The front operation is abandoned by a RESET (R34). -/
def State.resetOperation (s : State) : State :=
  match s.front.state with
  | .idle => s
  | .addressing _ _ => s.endTransaction
  | .loading _ _ => s.abandonRead.withFrontState .idle
  | .delivering _ => s.endTransaction
  | .receiving _ _ => s.endTransaction
  | .awaiting => s.resetAwaiting

/-- RESET (R34, R35); refused with cause STATE in STARTING and LINE_RESET (R36). -/
def execReset (s : State) : Host.Outcome State Fault Refusal :=
  .next
    (if s.frontIgnored then s
     else if s.frontClosed then s.deselect.refuseByte .state
     else
       let abandoned := s.resetOperation
       abandoned.withFront abandoned.front.clearLatched)

/-- UNKNOWN_OPERATION_BYTE: the byte's value decides (R19, R185). A byte that names none of the five operations is
ignored; one that names an operation, which is ill-formed here, is taken as that operation (log entry 26). -/
def execUnknownOperationByte (byte : Byte) (s : State) : Host.Outcome State Fault Refusal :=
  match operationOf byte with
  | none => .next s
  | some .read => execRead s
  | some .program => execProgram s
  | some .erase => execErase s
  | some .status => execStatus s
  | some .reset => execReset s

/-! ### The address phase -/

/-- A READ or write that passed screening clears REFUSED (R27, R29). -/
def State.clearRefused (s : State) : State := s.withFront { s.front with refused := false }

/-- The snoop takes a READ (R27, R59): composed at once over a queued erase of the block, else a media read is
requested. -/
def State.snoop (s : State) (row column : Nat) : State :=
  match afterErase (row / 128) s.queue.entries with
  | some _ => s.deliver row column [] false
  | none => ((s.withMedia { s.media with frontRead := some row }).withFrontState (.loading row column)).settled

/-- Report Memory composes a page, and the front delivers it with FAIL cleared (R27, R159). -/
def State.deliverReport (s : State) (page column : Nat) : State :=
  s.withFront
    { s.front with state := .delivering (s.reportPage page column), fail := false, statusSelected := false }

/-- A write enters RECEIVING: a slot with its buffer is reserved, or Report Memory holds the image of a consumption
write (R29, R41, R156). -/
def State.receive (s : State) (op : Translated) : State :=
  match op.path with
  | .report _ =>
    (s.withReport { s.report with consumption := some [] }).withFrontState (.receiving op op.column)
  | .snoop _ => (s.withQueue { s.queue with reserved := some [] }).withFrontState (.receiving op op.column)
  | .queue _ => (s.withQueue { s.queue with reserved := some [] }).withFrontState (.receiving op op.column)
  | .profile _ => (s.withQueue { s.queue with reserved := some [] }).withFrontState (.receiving op op.column)

/-- A translated operation goes on along its path (R14 to R17). -/
def State.route (s : State) (op : Translated) : State :=
  let passed := s.clearRefused
  match op.kind with
  | .read =>
    match op.path with
    | .snoop row => passed.snoop row op.column
    | .report page => passed.deliverReport page op.column
    | .queue row => passed.snoop row op.column
    | .profile row => passed.snoop row op.column
  | .program => passed.receive op
  | .erase => passed.receive op

/-- The end of the address phase (R8, R20, R25). -/
def State.endAddress (s : State) (kind : OpKind) (a : Address) : State :=
  match screen s.control.settings s.control.installed kind a with
  | .refused cause => (s.withFrontState .idle).refuse cause kind a.row a.absolute
  | .passed op => s.route op

/-- ADDRESS_BYTE (R19, R24): taken in ADDRESSING; the fifth ends the address phase. -/
def execAddressByte (byte : Byte) (s : State) : Host.Outcome State Fault Refusal :=
  .next
    (if s.frontIgnored then s
     else
       match s.front.state with
       | .addressing kind [row2, row1, row0, column1] =>
         s.endAddress kind (addressOf row2 row1 row0 column1 byte)
       | .addressing kind taken => s.withFrontState (.addressing kind (taken ++ [byte]))
       | .idle => s
       | .loading _ _ => s
       | .delivering _ => s
       | .receiving _ _ => s
       | .awaiting => s)

/-! ### Data, strobes and END -/

/-- A data byte goes into the image at the next column; bytes past column 4223 are discarded (R29). -/
def State.takeData (s : State) (op : Translated) (next : Nat) (byte : Byte) : State :=
  let moved := s.withFrontState (.receiving op (if next < 4224 then next + 1 else next))
  match op.path with
  | .report _ =>
    moved.withReport { s.report with consumption := s.report.consumption.map (fun p => writePage p next byte) }
  | .snoop _ => moved.withQueue { s.queue with reserved := s.queue.reserved.map (fun p => writePage p next byte) }
  | .queue _ => moved.withQueue { s.queue with reserved := s.queue.reserved.map (fun p => writePage p next byte) }
  | .profile _ => moved.withQueue { s.queue with reserved := s.queue.reserved.map (fun p => writePage p next byte) }

/-- DATA_BYTE (R24, R29): taken in RECEIVING for a PROGRAM. -/
def execDataByte (byte : Byte) (s : State) : Host.Outcome State Fault Refusal :=
  .next
    (if s.frontIgnored then s
     else
       match s.front.state with
       | .receiving op next => if op.kind = .program then s.takeData op next byte else s
       | .idle => s
       | .addressing _ _ => s
       | .loading _ _ => s
       | .delivering _ => s
       | .awaiting => s)

/-- The part drives the front data lines with a byte. -/
def State.drive (s : State) (byte : Option Byte) : State := s.withFront { s.front with dataOut := byte }

/-- A read strobe outside DELIVERING (R24, R33). -/
def State.strobeOutside (s : State) : State :=
  s.drive (some (if s.front.statusSelected then s.statusByte else 0xFF#8))

/-- READ_STROBE (R24, R28, R33, R37). -/
def execReadStrobe (s : State) : Host.Outcome State Fault Refusal :=
  .next
    (if s.frontIgnored then s.drive none
     else
       match s.front.state with
       | .delivering [] => s.drive (some 0xFF#8)
       | .delivering (byte :: rest) => (s.drive (some byte)).withFrontState (.delivering rest)
       | .idle => s.strobeOutside
       | .addressing _ _ => s.strobeOutside
       | .loading _ _ => s.strobeOutside
       | .receiving _ _ => s.strobeOutside
       | .awaiting => s.strobeOutside)

/-- The front learns the disposition of the new entry (R30). -/
def FrontPort.accepted (f : FrontPort) (posted : Bool) : FrontPort :=
  if posted then { f with state := .idle, posted := true, fail := false }
  else { f with state := .awaiting, posted := false }

/-- The Hold Queue forms the entry and appends it as youngest (R42, R43, R46). -/
def State.accept (s : State) (op : Translated) (row : Nat) : State :=
  let e := s.formEntry op row
  let queued := s.withQueue { s.queue with entries := s.queue.entries ++ [e], reserved := none }
  (queued.withFront (queued.front.accepted e.isPosted)).dropAccepted e.dropTag e.isPosted

/-- The offers are made anew while commits are allowed (R47, R48). -/
def State.offerAnew (s : State) : State := if s.commitsAllowed then s.settled else s

/-- The tag of an accepted consumption write (R156). -/
def consumptionTag : Nat := 0x5A3C

/-- The front row of window 14 page 1 (R155). -/
def consumptionRow : BitVec 24 := 0xE00001#24

/-- END of a consumption write (R30, R156, R157). -/
def State.endConsumption (s : State) : State :=
  let image := s.report.consumption.getD []
  let ended := (s.withReport { s.report with consumption := none }).withFrontState .idle
  if readField image 4 2 = consumptionTag then
    let cleared := ended.withFront { ended.front with fail := false, posted := false }
    cleared.withReport
      (cleared.report.release cleared.control.settings.mask (BitVec.ofNat 32 (readField image 0 4)))
  else ended.refuse .address .program consumptionRow false

/-- END (R24, R30). -/
def execEnd (s : State) : Host.Outcome State Fault Refusal :=
  .next
    (if s.frontIgnored then s
     else
       match s.front.state with
       | .receiving op _ =>
         match op.path with
         | .report _ => s.endConsumption
         | .snoop row => (s.accept op row).offerAnew
         | .queue row => (s.accept op row).offerAnew
         | .profile row => (s.accept op row).offerAnew
       | .idle => s
       | .addressing _ _ => s
       | .loading _ _ => s
       | .delivering _ => s
       | .awaiting => s)

end Sys2Proof.Machine
end

