-- ==== Sys2Proof/Machine/Media.lean ====
section
/-! DEFINITION. The commands of the media side: COMMAND_TRANSFER_END, MRDY_SEEN_HIGH, READOUT_END,
MEDIA_OPERATION_COMPLETE and DIE_TIMEOUT (chapter 4). A command that names a die in another phase is no event of that die
and has no effect (log entry 24). -/

namespace Sys2Proof.Machine

/-- The transfer at this die has the lines (R65). -/
def State.hasLines (s : State) (d : Die) : Bool := decide (s.media.lines.head? = some d)

/-- The transfer that has the lines ends; the next in order has them (R65). -/
def State.releaseLines (s : State) : State := s.withMedia { s.media with lines := s.media.lines.drop 1 }

/-- The operation of a die goes on in another phase. -/
def State.setPhase (s : State) (d : Die) (op : MediaOp) (phase : Phase) : State :=
  s.withDie d (.busy { op with phase := phase })

/-- COMMAND_TRANSFER_END (R73): the busy interval begins with the die timeout then in force. -/
def execCommandTransferEnd (d : Die) (s : State) : Host.Outcome State Fault Refusal :=
  .next
    (match s.die d with
     | .idle => s
     | .offline => s
     | .busy op =>
       if op.phase = .command ∧ s.hasLines d = true then
         s.releaseLines.setPhase d op (.busy s.tick s.control.settings.dieTimeoutMs 0)
       else s)

/-- An operation has completed: the die is IDLE, a failed READ, PROGRAM or ERASE counts, the result goes to its requester
and every die is granted again (R39, R68, R72). -/
def State.completeMedia (s : State) (d : Die) (op : MediaOp) (result : MediaResult) (data : Page) : State :=
  let freed := s.withDie d .idle
  let counted := if result.passed then freed else freed.countFailure
  (counted.handResult d op.requester result data).settled

/-- MRDY_SEEN_HIGH (R65, R74): the timer stops; a READ goes on to its readout, a PROGRAM or ERASE to its status read, and a
RESET completes with pass. -/
def execMrdySeenHigh (d : Die) (s : State) : Host.Outcome State Fault Refusal :=
  .next
    (match s.die d with
     | .idle => s
     | .offline => s
     | .busy op =>
       match op.phase with
       | .busy _ _ _ =>
         match op.kind with
         | .read => (s.setPhase d op .readout).handLines
         | .program => (s.setPhase d op (.status [])).handLines
         | .erase => (s.setPhase d op (.status [])).handLines
         | .reset => s.completeMedia d op (.pass []) []
       | .command => s
       | .readout => s
       | .status _ => s)

/-- READOUT_END (R65): the bytes of the page are taken and the status read becomes ready. -/
def execReadoutEnd (d : Die) (page : Page) (s : State) : Host.Outcome State Fault Refusal :=
  .next
    (match s.die d with
     | .idle => s
     | .offline => s
     | .busy op =>
       if op.phase = .readout ∧ s.hasLines d = true then
         (s.releaseLines.setPhase d op (.status (normalizePage page))).handLines
       else s)

/-- Pass or fail by bit 0 of the die's status byte (R185). -/
def statusResult (status : Byte) (data : Page) : MediaResult :=
  if status.getLsbD 0 then .fail .media else .pass data

/-- MEDIA_OPERATION_COMPLETE (R72): the end of the status read. -/
def execMediaOperationComplete (d : Die) (status : Byte) (s : State) : Host.Outcome State Fault Refusal :=
  .next
    (match s.die d with
     | .idle => s
     | .offline => s
     | .busy op =>
       match op.phase with
       | .status data =>
         if s.hasLines d then s.releaseLines.completeMedia d op (statusResult status data) data else s
       | .command => s
       | .busy _ _ _ => s
       | .readout => s)

def Requester.name : Requester → RequesterName
  | .front _ => .front
  | .commit => .commit
  | .service _ => .service

/-- The page a DIE_OFFLINE record shows: present for READ and PROGRAM (R76). -/
def MediaOp.recordPage (op : MediaOp) : Option Nat :=
  match op.kind with
  | .read => op.row.map (· % 128)
  | .program => op.row.map (· % 128)
  | .erase => none
  | .reset => none

/-- The DIE_OFFLINE record (R76). -/
def State.recordOffline (s : State) (d : Die) (op : MediaOp) (cause : OfflineCause) (start : Tick)
    (timeoutMs : Nat) : State :=
  s.record (.dieOffline
    { die := d, cause := cause, operation := op.kind, requester := op.requester.name
      block := op.row.map (· / 128), page := op.recordPage, busyStart := start, timeoutMs := timeoutMs })

/-- A timer's expiry at a die (R73; R77 for a probe): the die is OFFLINE, the requester is handed the failure, and a
DIE_OFFLINE record is produced; a probe's record comes before its result (R77). -/
def State.timeOut (s : State) (d : Die) (op : MediaOp) (start : Tick) (timeoutMs : Nat) : State :=
  let off := s.withDie d .offline
  match op.kind with
  | .reset => (off.recordOffline d op .noAnswer start timeoutMs).handResult d op.requester (.fail .timeout) []
  | .read =>
    ((off.countFailure).handResult d op.requester (.fail .timeout) []).recordOffline d op .timeout start timeoutMs
  | .program =>
    ((off.countFailure).handResult d op.requester (.fail .timeout) []).recordOffline d op .timeout start timeoutMs
  | .erase =>
    ((off.countFailure).handResult d op.requester (.fail .timeout) []).recordOffline d op .timeout start timeoutMs

/-- DIE_TIMEOUT (R73, R77): the timer of the die's busy interval expires, once its interval has passed. -/
def execDieTimeout (d : Die) (s : State) : Host.Outcome State Fault Refusal :=
  .next
    (match s.die d with
     | .idle => s
     | .offline => s
     | .busy op =>
       match op.phase with
       | .busy start timeoutMs elapsed =>
         if timeoutMs * 10 ≤ elapsed then (s.timeOut d op start timeoutMs).settled else s
       | .command => s
       | .readout => s
       | .status _ => s)

end Sys2Proof.Machine
end

