-- ==== Sys2Proof/Machine/Motion.lean ====
section
/-! DEFINITION. The commands of the motion lines and their timers: FFALL_RISE, FFALL_FALL, FIMP_RISE, FIMP_FALL,
MERGE_TIMER_EXPIRY, SETTLE_TIMER_EXPIRY and CEILING_TIMER_EXPIRY (chapter 5). -/

namespace Sys2Proof.Machine

/-- The parameters the timers and the span use (R82). -/
def State.dropParams (s : State) : DropParams := s.drop.params s.control.settings

/-- The drop state leaves CALM at an edge (R84). -/
def State.departCalm (s : State) (edge : DropEdge) : State :=
  s.withDrop (s.drop.depart edge s.tick s.control.settings.dropParams s.control.state.dips)

/-- An FFALL rise by drop state (R84, R86, R90). -/
def DropMonitor.rise (d : DropMonitor) (stamp : Tick) : DropMonitor :=
  match d.state with
  | .calm => d
  | .falling =>
    { d.youngest (Drop.beginOnset stamp) with mergeTimer := .stopped, openOnset := some stamp }
  | .settling =>
    { d.youngest (fun x =>
        { x.beginOnset stamp with falls := satAdd 65535 x.falls 1 }) with
      state := .falling, settleTimer := .stopped, openOnset := some stamp }

/-- FFALL_RISE (R80, R84, R86, R90): an edge only where the line was low (log entry 3). -/
def execFfallRise (s : State) : Host.Outcome State Fault Refusal :=
  .next
    (if s.pins.ffall then s
     else
       let high := s.withPins { s.pins with ffall := true }
       let stamped := high.withDrop { high.drop with ffallSince := some s.tick }
       match s.drop.state with
       | .calm => stamped.departCalm .ffall
       | .falling => stamped.withDrop (stamped.drop.rise s.tick)
       | .settling => stamped.withDrop (stamped.drop.rise s.tick))

/-- The onset of a drop in FALLING ends and the merge gap begins; a merge of 0 ends at once (R85, R87). -/
def DropMonitor.fallInFalling (d : DropMonitor) (stamp : Tick) (params : DropParams) : DropMonitor :=
  let ended := d.endOnset stamp
  if params.mergeMs = 0 then ended.settle params
  else { ended with mergeTimer := Timer.startMs params.mergeMs }

/-- The suspension ends (R93, R102). -/
def State.resumeFreeFall (s : State) (since : Tick) : State :=
  (s.withDrop { s.drop with suspended := none }).record (.sensor (.resumed since))

/-- FFALL_FALL (R85, R90, R93). -/
def execFfallFall (s : State) : Host.Outcome State Fault Refusal :=
  .next
    (if s.pins.ffall then
       let low := s.withPins { s.pins with ffall := false }
       match s.drop.suspended with
       | some since => low.resumeFreeFall since
       | none =>
         match s.drop.state with
         | .calm => low
         | .falling => low.withDrop (low.drop.fallInFalling s.tick low.dropParams)
         | .settling => low.withDrop (low.drop.endOnset s.tick)
     else s)

/-- A FIMP rise taken in FALLING (R88). -/
def DropMonitor.impactFalling (d : DropMonitor) (stamp : Tick) (params : DropParams) : DropMonitor :=
  { (d.youngest (Drop.impactInFall stamp params.latency)).settle params with impactStart := some stamp }

/-- A FIMP rise taken in SETTLING (R89). -/
def DropMonitor.impactSettling (d : DropMonitor) (stamp : Tick) (params : DropParams) : DropMonitor :=
  { d.youngest Drop.addImpact with
    settleTimer := Timer.startMs params.settleMs, impactStart := some stamp }

/-- FIMP_RISE (R84, R88, R89, R93); in CALM it opens a drop with K on and is ignored with K off. -/
def execFimpRise (s : State) : Host.Outcome State Fault Refusal :=
  .next
    (if s.pins.fimp then s
     else
       let high := s.withPins { s.pins with fimp := true }
       match s.drop.state with
       | .calm => if s.control.settings.knockHold then high.departCalm .fimp else high
       | .falling => high.withDrop (high.drop.impactFalling s.tick high.dropParams)
       | .settling => high.withDrop (high.drop.impactSettling s.tick high.dropParams))

/-- FIMP_FALL (R94). -/
def execFimpFall (s : State) : Host.Outcome State Fault Refusal :=
  .next
    (if s.pins.fimp then
       let low := s.withPins { s.pins with fimp := false }
       low.withDrop (low.drop.endImpact s.tick)
     else s)

/-- MERGE_TIMER_EXPIRY (R87): taken where the timer's interval has passed. -/
def execMergeTimerExpiry (s : State) : Host.Outcome State Fault Refusal :=
  .next (if s.drop.mergeTimer.due then s.withDrop (s.drop.settle s.dropParams) else s)

/-- The drop closes and is reported where it is ready (R91, R100); drain resumes after it (R48, R70). It is reported in
whatever service state it closes, so a drop that closes in SPENT has its DROP record there, before the START record of the
recovery: R146 says that such a drop 'is reported later in SERVICE', R100 and 11_field_sequences.md have the record at the
close, and the model follows these (log entry 28). -/
def State.closeDrop (s : State) (ceiling : Bool) : State :=
  (s.withDrop (s.drop.close s.tick ceiling)).reportDrops

/-- SETTLE_TIMER_EXPIRY (R91): taken where the timer's interval has passed. DROP records come before the COMMIT_FAIL
records of entries that wait for an OFFLINE die, which R152 leaves open (log entry 22). -/
def execSettleTimerExpiry (s : State) : Host.Outcome State Fault Refusal :=
  .next (if s.drop.settleTimer.due then (s.closeDrop false).settled else s)

/-- Free-fall becomes suspended at a ceiling expiry with FFALL high, unless it is already (R92, R102). -/
def State.suspendFreeFall (s : State) (drop : Tick) (ceilingMs : Nat) : State :=
  if s.pins.ffall ∧ s.drop.suspended = none then
    (s.withDrop { s.drop with suspended := some s.tick }).record
      (.sensor (.suspended drop s.drop.ffallSince ceilingMs))
  else s

/-- CEILING_TIMER_EXPIRY (R92): taken where the timer's interval has passed. The DROP and SENSOR records come before the
COMMIT_FAIL records of entries that wait for an OFFLINE die, which R152 leaves open (log entry 22). -/
def execCeilingTimerExpiry (s : State) : Host.Outcome State Fault Refusal :=
  .next
    (if s.drop.ceilingTimer.due then
       ((s.closeDrop true).suspendFreeFall s.drop.current s.dropParams.ceilingMs).settled
     else s)

end Sys2Proof.Machine
end

