-- ==== Sys2Proof/Machine/Supply.lean ====
section
/-! DEFINITION. The commands of power-on, the supply lines, the line reset and the Timebase: POWER_ON, START_UP_SETTLE_END,
SUPGOOD_FALL, SUPGOOD_RISE, RSVGOOD_FALL, RSVGOOD_RISE, LRST and TICK (chapters 7 and 9, R1). -/

namespace Sys2Proof.Machine

/-- POWER_ON (R169): every block takes its power-on state; the commands that wait and the count of open choices are the
model's own and stay. -/
def execPowerOn (levels : LineLevels) (s : State) : Host.Outcome State Fault Refusal :=
  .next (State.powerOn levels s.free s.pending)

/-- The settle interval has run its 200 ticks (R169). -/
def Sequence.settleDue : Sequence → Bool
  | .settling elapsed => decide (200 ≤ elapsed)
  | .none => false
  | .probeDieZero => false
  | .profileScan _ _ _ _ => false
  | .probeAdded _ => false
  | .noteScan _ _ => false
  | .openedErase _ => false
  | .openedProgram _ => false
  | .lineProbe _ => false
  | .lineWait => false
  | .drain => false
  | .flushNote => false

/-- START_UP_SETTLE_END (R129, R169): SUPGOOD is read; start-up begins with the probe of die 0, or the part goes to
SPENT. -/
def execStartUpSettleEnd (s : State) : Host.Outcome State Fault Refusal :=
  .next
    (if s.control.sequence.settleDue then
       if s.pins.supgood then ((s.withSequence .probeDieZero).request (.probe 0)).settled
       else s.stopStartUp.settled
     else s)

/-- What entry to FLUSHING does to the front (R37): the operation is abandoned and the status output deselected. -/
def State.flushFront (s : State) : State :=
  let ended :=
    match s.front.state with
    | .idle => s
    | .addressing _ _ => s.withFrontState .idle
    | .loading _ _ => s.abandonRead.withFrontState .idle
    | .delivering _ => s.withFrontState .idle
    | .receiving _ _ => s.dropReceiving
    | .awaiting => s.withFrontState .idle
  ended.deselect

/-- B at entry to FLUSHING (R134). -/
def State.entryBudget (s : State) : Nat :=
  if s.pins.rsvgood then s.control.rres - s.media.writesInProgress else 0

/-- The Service Controller at entry to FLUSHING (R132, R134, R147). -/
def State.flushControl (s : State) : State :=
  s.withControl
    { s.control with
      state := .flushing, sequence := .drain, budget := s.entryBudget, counts := ⟨0, 0, 0⟩
      flushNote := none, dipStart := s.tick }

/-- Entry to FLUSHING in every block (R132): the front, the AWAITING entry detached, service operations no longer awaited,
the pending drops marked (R37, R55, R79, R104). -/
def State.enterFlushing (s : State) : State :=
  let fronted := s.flushControl.flushFront
  let detached := fronted.withQueue fronted.queue.detach
  let released := detached.withMedia (detached.media.restand .disregarded)
  (released.withDrop released.drop.markDip).settled

/-- SUPGOOD_FALL (R131): an edge only where the line was high. -/
def execSupgoodFall (s : State) : Host.Outcome State Fault Refusal :=
  .next
    (if s.pins.supgood then
       let low := s.withPins { s.pins with supgood := false }
       match s.control.state with
       | .starting => low.stopStartUp.settled
       | .service => low.enterFlushing
       | .lineReset => low.enterFlushing
       | .flushing => low
       | .spent => low.stopRecovery.settled
     else s)

/-- SUPGOOD_RISE (R131, R144): in SPENT a dip recovery begins. -/
def execSupgoodRise (s : State) : Host.Outcome State Fault Refusal :=
  .next
    (if s.pins.supgood then s
     else
       let high := s.withPins { s.pins with supgood := true }
       match s.control.state with
       | .starting => high
       | .service => high
       | .lineReset => high
       | .flushing => high
       | .spent => high.beginRecovery.settled)

/-- RSVGOOD_FALL (R130, R136): L becomes 0; in FLUSHING B becomes 0, which may end the drain. -/
def execRsvgoodFall (s : State) : Host.Outcome State Fault Refusal :=
  .next
    (if s.pins.rsvgood then
       let low := s.withPins { s.pins with rsvgood := false }
       match s.control.state with
       | .starting => low
       | .service => low
       | .lineReset => low
       | .flushing => (low.withControl { low.control with budget := 0 }).settled
       | .spent => low
     else s)

/-- RSVGOOD_RISE (R130, R136): L is restored by the level of the line; B stays as it is. -/
def execRsvgoodRise (s : State) : Host.Outcome State Fault Refusal :=
  .next (if s.pins.rsvgood then s else s.withPins { s.pins with rsvgood := true })

/-- What LRST does to the front (R36): its operation is abandoned, an attached entry is withdrawn or detached, the front is
IDLE, and FAIL, REFUSED, POSTED and the counters are cleared. -/
def State.lineFront (s : State) : State :=
  let ended :=
    match s.front.state with
    | .idle => s
    | .addressing _ _ => s.withFrontState .idle
    | .loading _ _ => s.abandonRead.withFrontState .idle
    | .delivering _ => s.withFrontState .idle
    | .receiving _ _ => s.dropReceiving
    | .awaiting => s.withFrontState .idle
  ended.withFront
    { ended.front with fail := false, refused := false, posted := false, counters := ⟨0, 0, 0, 0, 0, 0⟩ }

/-- The patience counters return to 0 (R69). -/
def Scheduler.clearPatience (m : Scheduler) : Scheduler :=
  { m with dies := m.dies.map (fun r => { r with patience := 0 }) }

/-- The Service Controller at an LRST (R182). -/
def State.lineControl (s : State) (withdrawn : Bool) : State :=
  s.withControl
    { s.control with
      state := .lineReset, lineReset := { committed := 0, failed := 0, withdrawn := withdrawn }
      lrstTick := s.tick }

/-- The OFFLINE dies within the installed count, ascending (R182). -/
def State.offlineDies (s : State) : List Die :=
  allDies.filter (fun d => s.isInstalled d && decide (s.die d = .offline))

/-- An LRST taken in SERVICE (R182). -/
def State.beginLineReset (s : State) : State :=
  let marked := s.lineControl (s.queue.entries.any Entry.withdrawable)
  let fronted := marked.lineFront.withdraw
  let detached := fronted.withQueue fronted.queue.detach
  let patient := detached.withMedia detached.media.clearPatience
  (patient.lineProbeNext patient.offlineDies).settled

/-- LRST (R168, R182): taken in SERVICE, ignored in every other service state. -/
def execLrst (s : State) : Host.Outcome State Fault Refusal :=
  .next
    (match s.control.state with
     | .service => s.beginLineReset
     | .starting => s
     | .lineReset => s
     | .flushing => s
     | .spent => s)

/-! ### TICK (R1) -/

def Phase.advance : Phase → Phase
  | .command => .command
  | .busy start timeoutMs elapsed => .busy start timeoutMs (elapsed + 1)
  | .readout => .readout
  | .status data => .status data

def DieRecord.advance (r : DieRecord) : DieRecord :=
  match r.state with
  | .idle => r
  | .offline => r
  | .busy op => { r with state := .busy { op with phase := op.phase.advance } }

def Sequence.advance : Sequence → Sequence
  | .settling elapsed => .settling (elapsed + 1)
  | .none => .none
  | .probeDieZero => .probeDieZero
  | .profileScan purpose page best failed => .profileScan purpose page best failed
  | .probeAdded rest => .probeAdded rest
  | .noteScan page best => .noteScan page best
  | .openedErase opening => .openedErase opening
  | .openedProgram opening => .openedProgram opening
  | .lineProbe rest => .lineProbe rest
  | .lineWait => .lineWait
  | .drain => .drain
  | .flushNote => .flushNote

def DropMonitor.advance (d : DropMonitor) : DropMonitor :=
  { d with mergeTimer := d.mergeTimer.advance, settleTimer := d.settleTimer.advance
           ceilingTimer := d.ceilingTimer.advance }

/-- TICK (R1): the counter increments, wrapping, and every running timer advances by one tick. -/
def execTick (s : State) : Host.Outcome State Fault Refusal :=
  .next
    { s with
      tick := s.tick + 1
      media := { s.media with dies := s.media.dies.map DieRecord.advance }
      drop := s.drop.advance
      gauge := { s.gauge with gateTicks := s.gauge.gateTicks + 1 }
      control := { s.control with sequence := s.control.sequence.advance } }

end Sys2Proof.Machine
end

