-- ==== Sys2Proof/Machine/Dispatch.lean ====
section
/-! DEFINITION. One arm per command. -/

namespace Sys2Proof.Machine

def exec (i : Instr) (s : State) : Host.Outcome State Fault Refusal :=
  match i with
  | .powerOn levels => Sys2Proof.Machine.execPowerOn levels s
  | .startUpSettleEnd => Sys2Proof.Machine.execStartUpSettleEnd s
  | .read => Sys2Proof.Machine.execRead s
  | .program => Sys2Proof.Machine.execProgram s
  | .erase => Sys2Proof.Machine.execErase s
  | .status => Sys2Proof.Machine.execStatus s
  | .reset => Sys2Proof.Machine.execReset s
  | .unknownOperationByte byte => Sys2Proof.Machine.execUnknownOperationByte byte s
  | .addressByte byte => Sys2Proof.Machine.execAddressByte byte s
  | .dataByte byte => Sys2Proof.Machine.execDataByte byte s
  | .readStrobe => Sys2Proof.Machine.execReadStrobe s
  | .endStrobe => Sys2Proof.Machine.execEnd s
  | .commandTransferEnd die => Sys2Proof.Machine.execCommandTransferEnd die s
  | .mrdySeenHigh die => Sys2Proof.Machine.execMrdySeenHigh die s
  | .readoutEnd die page => Sys2Proof.Machine.execReadoutEnd die page s
  | .mediaOperationComplete die status => Sys2Proof.Machine.execMediaOperationComplete die status s
  | .dieTimeout die => Sys2Proof.Machine.execDieTimeout die s
  | .ffallRise => Sys2Proof.Machine.execFfallRise s
  | .ffallFall => Sys2Proof.Machine.execFfallFall s
  | .fimpRise => Sys2Proof.Machine.execFimpRise s
  | .fimpFall => Sys2Proof.Machine.execFimpFall s
  | .mergeTimerExpiry => Sys2Proof.Machine.execMergeTimerExpiry s
  | .settleTimerExpiry => Sys2Proof.Machine.execSettleTimerExpiry s
  | .ceilingTimerExpiry => Sys2Proof.Machine.execCeilingTimerExpiry s
  | .qpulseRise qdir => Sys2Proof.Machine.execQpulseRise qdir s
  | .tfreqRise => Sys2Proof.Machine.execTfreqRise s
  | .gateEnd => Sys2Proof.Machine.execGateEnd s
  | .minuteBoundary => Sys2Proof.Machine.execMinuteBoundary s
  | .chgdoneRise => Sys2Proof.Machine.execChgdoneRise s
  | .pkemptyRise => Sys2Proof.Machine.execPkemptyRise s
  | .pkpresFall => Sys2Proof.Machine.execPkpresFall s
  | .pkpresRise => Sys2Proof.Machine.execPkpresRise s
  | .supgoodFall => Sys2Proof.Machine.execSupgoodFall s
  | .supgoodRise => Sys2Proof.Machine.execSupgoodRise s
  | .rsvgoodFall => Sys2Proof.Machine.execRsvgoodFall s
  | .rsvgoodRise => Sys2Proof.Machine.execRsvgoodRise s
  | .lrst => Sys2Proof.Machine.execLrst s
  | .tick => Sys2Proof.Machine.execTick s

end Sys2Proof.Machine
end

