-- ==== Sys2Proof/Machine/Step.lean ====
section
/-! DEFINITION. One step takes the command at the front of the queue. -/

namespace Sys2Proof.Machine

/-- The command at the front runs with the queue's rest; on an empty queue the block idles (log entry 1). -/
def step (s : State) : Host.Outcome State Fault Refusal :=
  match s.pending with
  | [] => .next s
  | c :: rest => exec c (s.withPending rest)

/-- The command a word spells, at the front of the queue; a word that spells none changes nothing. -/
def State.withFetchWord (s : State) (nbits w : Nat) : State :=
  match decodeTableWord nbits w with
  | none => s
  | some c => s.withPending (c :: s.pending)

end Sys2Proof.Machine
end

