-- ==== Sys2Proof/Safety.lean ====
section
/-! DEFINITION. The laws of the part: conditions that the manual says hold at all times, as predicates of one
state. Each law is about the blocks it names; none mentions the commands that wait. -/

namespace Sys2Proof.Machine

/-! ### Report Memory (R151, R152, R154, R164) -/

/-- The record is a REFUSAL of this cause. -/
def Record.refusalOf (c : RecordedCause) (x : Record) : Prop := ∃ r, x.payload = .refusal r ∧ r.cause = c

/-- The ring holds at most 256 records with consecutive numbers up to the next number, repeat counts as R151 gives
them, slots that name exactly the ring's REFUSAL records, and ATTN at its condition. -/
structure ReportMemory.Lawful (r : ReportMemory) (mask : BitVec 16) : Prop where
  length : r.ring.length ≤ 256
  numbers : ∀ i x, r.ring[i]? = some x → x.number = r.next - BitVec.ofNat 32 (r.ring.length - i)
  counts : ∀ x ∈ r.ring, 1 ≤ x.count ∧ x.count ≤ 65535 ∧ ((∀ c, ¬ x.refusalOf c) → x.count = 1)
  slots : ∀ c n, r.slots.get c = some n ↔ ∃ x ∈ r.ring, x.number = n ∧ x.refusalOf c
  attn : r.attn = r.attnCondition mask

def State.ReportLaw (s : State) : Prop := s.report.Lawful s.control.settings.mask

/-! ### Settings and windows (R173, R3, R5) -/

/-- A derate table as R173 leaves it: temperatures in range and strictly ascending, factors in range. -/
structure DerateTable.Lawful (t : DerateTable) : Prop where
  ascending : t.p1.temperature < t.p2.temperature ∧ t.p2.temperature < t.p3.temperature ∧
    t.p3.temperature < t.p4.temperature
  lowest : -40 ≤ t.p1.temperature
  highest : t.p4.temperature ≤ 85
  factors : ∀ f ∈ [t.p1.factor, t.p2.factor, t.p3.factor, t.p4.factor], 1 ≤ f ∧ f ≤ 256

/-- The live settings lie in the ranges of R173. -/
structure Settings.Lawful (v : Settings) : Prop where
  settle : 10 ≤ v.settleMs ∧ v.settleMs ≤ 2000
  ceiling : 500 ≤ v.ceilingMs ∧ v.ceilingMs ≤ 10000
  merge : v.mergeMs ≤ 100
  latency : v.latency ≤ 2000
  weight : 1 ≤ v.weight ∧ v.weight ≤ 65535
  nominal : 500 ≤ v.nominal ∧ v.nominal ≤ 20000
  thresholds : 1 ≤ v.low ∧ v.low ≤ 50 ∧ v.critical < v.low
  zeroCount : v.zeroCount ≤ 65535
  perDegree : 1 ≤ v.perDegree ∧ v.perDegree ≤ 255
  derate : v.derate.Lawful
  interval : 1 ≤ v.interval ∧ v.interval ≤ 3600
  dieTimeout : 1 ≤ v.dieTimeoutMs ∧ v.dieTimeoutMs ≤ 255
  patience : 1 ≤ v.patience ∧ v.patience ≤ 8

def State.SettingsLaw (s : State) : Prop :=
  s.control.settings.Lawful ∧ 1 ≤ s.control.installed ∧ s.control.installed ≤ 4 ∧
  2 ≤ s.control.rres ∧ s.control.rres ≤ 64

/-- An enabled entry's range lies on installed dies, outside physical blocks 0 and 1 (R5 conditions 1 to 3). -/
def Window.Placed (installed : Nat) (w : Window) : Prop :=
  w.enabled = true → 2 ≤ w.base ∧ 1 ≤ w.extent ∧ w.extent ≤ 8192 ∧ w.base + w.extent ≤ installed * 8192

def State.WindowLaw (s : State) : Prop :=
  s.control.settings.windows.length = 14 ∧ ∀ w ∈ s.control.settings.windows, w.Placed s.control.installed

/-! ### Where front writes go (R13) -/

/-- A row a front write may carry: outside the note block and within the physical rows; in the profile block exactly
where the profile flag is set. -/
def WriteRow (row : Nat) (profileFlag : Bool) : Prop :=
  row < 4194304 ∧ row / 128 ≠ 1 ∧ (profileFlag = true ↔ row / 128 = 0)

/-- What an accepted write in RECEIVING carries. -/
def Translated.WriteLaw (op : Translated) : Prop :=
  match op.path with
  | .queue row => WriteRow row op.profileFlag
  | .profile row => WriteRow row op.profileFlag
  | .report _ => True
  | .snoop _ => False

/-- A commit in progress at a die writes to a row a front write may carry. -/
def DieState.WriteLaw : DieState → Prop
  | .idle => True
  | .offline => True
  | .busy op => op.requester = .commit → ∃ row flag, op.row = some row ∧ WriteRow row flag

/-- R13 in one state: windows stand clear of the profile and note blocks, and no front write on its way, queued or at
a die names the note block. -/
structure State.AddressLaw (s : State) : Prop where
  installed : 1 ≤ s.control.installed ∧ s.control.installed ≤ 4
  windows : s.WindowLaw
  receiving : ∀ op next, s.front.state = .receiving op next → op.WriteLaw
  entries : ∀ e ∈ s.queue.entries, WriteRow e.row e.profileFlag
  dies : ∀ d, (s.die d).WriteLaw

/-! ### The Charge Gauge (R107, R110) -/

structure Gauge.Lawful (g : Gauge) : Prop where
  remaining : g.remaining ≤ g.learned
  learned : g.nominalCu / 2 ≤ g.learned ∧ g.learned ≤ g.nominalCu * 5 / 4
  soc : ∀ x, g.derived.soc = some x → x ≤ 100
  unknown : g.state = .unknown → g.remaining = 0 ∧ g.anchor = false
  temperature : -40 ≤ g.temperature ∧ g.temperature ≤ 85
  factor : 1 ≤ g.derived.factor ∧ g.derived.factor ≤ 256
  usable : 1 ≤ g.derived.usable
  drawn : g.drawn ≤ 4294967295
  gateCount : g.gateCount ≤ 1048575
  gates : g.gates < 60
  net : -2147483648 ≤ g.net ∧ g.net ≤ 2147483647
  buckets : g.buckets.length ≤ 8 ∧ ∀ b ∈ g.buckets, -2147483648 ≤ b ∧ b ≤ 2147483647
  periods : g.periods ≤ 3600

/-- The gauge is within its bounds, N is the nominal in force, and the settings are in range. -/
structure State.GaugeLaw (s : State) : Prop where
  settings : s.SettingsLaw
  nominal : s.gauge.nominalCu = s.control.settings.nominal * 16000
  gauge : s.gauge.Lawful

/-! ### The Service Controller's sequences (R66, R168) -/

/-- The service state in which each step of a sequence stands. -/
def Sequence.standsIn : Sequence → ServiceState → Prop
  | .none, v => v = .service ∨ v = .spent
  | .settling _, v => v = .starting
  | .probeDieZero, v => v = .starting
  | .profileScan .startUp _ _ _, v => v = .starting
  | .profileScan .lineReset _ _ _, v => v = .lineReset
  | .probeAdded _, v => v = .starting
  | .noteScan _ _, v => v = .starting
  | .openedErase (.startUp _), v => v = .starting
  | .openedErase .dipRecovery, v => v = .spent
  | .openedProgram (.startUp _), v => v = .starting
  | .openedProgram .dipRecovery, v => v = .spent
  | .lineProbe _, v => v = .lineReset
  | .lineWait, v => v = .lineReset
  | .drain, v => v = .flushing
  | .flushNote, v => v = .flushing

/-- The service operation whose result each step awaits. -/
def Sequence.awaits : Sequence → ServiceOp → Prop
  | .none, _ => False
  | .settling _, _ => False
  | .probeDieZero, op => op = .probe 0
  | .profileScan _ page _ _, op => op = .profileRead page
  | .probeAdded _, op => ∃ d, op = .probe d
  | .noteScan page _, op => op = .noteRead page
  | .openedErase _, op => op = .noteErase
  | .openedProgram _, op => op = .openedNote
  | .lineProbe _, op => ∃ d, op = .probe d
  | .lineWait, _ => False
  | .drain, _ => False
  | .flushNote, op => ∃ image, op = .flushNote image

/-- The service request in progress at a die, if any. -/
def DieState.serviceRequest : DieState → Option ServiceRequest
  | .idle => none
  | .offline => none
  | .busy op =>
    match op.requester with
    | .front _ => none
    | .commit => none
    | .service r => some r

/-- The service requests that wait or are in progress. -/
def State.serviceRequests (s : State) : List ServiceRequest :=
  s.media.services ++ allDies.filterMap (fun d => (s.die d).serviceRequest)

def ServiceRequest.awaitedNow (r : ServiceRequest) : Bool := decide (r.standing = .awaited)

/-- Each sequence stands in its service state; at most one service operation is awaited, and it is the one the
sequence waits for (R66: 'one at a time'); each is in progress at its own die; a FLUSH note is requested by the flush alone; no recovery runs in SPENT with
the supply low (R131, R144). -/
structure State.SequenceLaw (s : State) : Prop where
  stands : s.control.sequence.standsIn s.control.state
  single : s.serviceRequests.countP ServiceRequest.awaitedNow ≤ 1
  awaited : ∀ r ∈ s.serviceRequests, r.standing = .awaited → s.control.sequence.awaits r.op
  place : ∀ d r, (s.die d).serviceRequest = some r → r.op.die = d
  flush : ∀ r ∈ s.serviceRequests, ∀ image, r.op = .flushNote image → r.standing = .awaited
  supply : s.control.state = .spent → s.pins.supgood = false → s.control.sequence = .none

/-! ### The Hold Queue (R44, R45, R36, R37, R56) -/

structure State.QueueLaw (s : State) : Prop where
  rres : 2 ≤ s.control.rres ∧ s.control.rres ≤ 64
  /-- R44: POSTED entries never exceed R_res − 1. -/
  posted : s.queue.postedCount + 1 ≤ s.control.rres
  /-- R44: the queue never holds more than 64 entries. -/
  length : s.queue.entries.length ≤ 64
  /-- R45: an AWAITING entry is the youngest, so at most one is held. -/
  awaiting : ∀ e ∈ s.queue.entries.dropLast, e.disposition = .posted
  /-- An AWAITING entry keeps the front in AWAITING, or the part is in LINE_RESET or FLUSHING (R45). -/
  front : ∀ e ∈ s.queue.entries, e.disposition ≠ .posted →
    s.front.state = .awaiting ∨ s.control.state = .lineReset ∨ s.control.state = .flushing
  /-- In STARTING and SPENT the queue is empty (R133, R144). -/
  empty : s.control.state = .starting ∨ s.control.state = .spent → s.queue.entries = []
  /-- Outside SERVICE the front is IDLE (R36, R37). -/
  idle : s.control.state ≠ .service → s.front.state = .idle
  /-- The line reset's scan and the FLUSH note follow an empty queue (R183, R137). -/
  scan : ∀ page best failed, s.control.sequence = .profileScan .lineReset page best failed → s.queue.entries = []
  note : s.control.sequence = .flushNote → s.queue.entries = []
  sequence : s.SequenceLaw

/-! ### The failed-row table (R57) -/

/-- Two records cover a row in common. -/
def FailedRow.overlaps (a b : FailedRow) : Prop :=
  a.block = b.block ∧ (a.page = none ∨ b.page = none ∨ a.page = b.page)

/-- At most 16 records, and no row covered twice. -/
def State.FailedRowLaw (s : State) : Prop :=
  s.queue.failedRows.length ≤ 16 ∧ s.queue.failedRows.Pairwise (fun a b => ¬ a.overlaps b)

/-! ### The Drop Monitor (R83, R97, R98) -/

def Drop.isClosed (x : Drop) : Prop := x.condition ≠ .opened

structure DropMonitor.Lawful (d : DropMonitor) : Prop where
  length : d.pending.length ≤ 4
  /-- Numbers are consecutive and end at the counter (R83, R98). -/
  numbers : ∀ i x, d.pending[i]? = some x → x.number = d.counter - BitVec.ofNat 32 (d.pending.length - 1 - i)
  older : ∀ x ∈ d.pending.dropLast, x.isClosed
  calm : d.state = .calm → ∀ x ∈ d.pending, x.isClosed
  opened : d.state ≠ .calm → ∃ x, d.pending.getLast? = some x ∧ x.condition = .opened
  timersCalm : d.state = .calm → d.mergeTimer = .stopped ∧ d.settleTimer = .stopped ∧ d.ceilingTimer = .stopped
  timersFalling : d.state = .falling → d.settleTimer = .stopped
  timersSettling : d.state = .settling → d.mergeTimer = .stopped ∧ d.settleTimer ≠ .stopped
  ceiling : d.state ≠ .calm → d.ceilingTimer ≠ .stopped
  onsets : ∀ x ∈ d.pending, x.onsets.length ≤ 8

/-- Entries that carry a drop's tag. -/
def HoldQueue.tagged (q : HoldQueue) (number : Tick) : Nat := q.entries.countP (fun e => decide (e.dropTag = some number))

/-- Drop number `b` is as young as `a` or younger: numbers are compared by how many drops before the counter they lie,
so that the order is that of numbering across a wrap (R46, R98). -/
def DropMonitor.AsYoung (d : DropMonitor) (a b : Tick) : Prop := (d.counter - b).toNat ≤ (d.counter - a).toNat

/-- The drops are in order, each drop's outstanding count is the number of queue entries with its tag (R97), every tag
names a drop of the table (R97, R98), and the tags do not decrease from the oldest entry to the youngest (R46). -/
structure State.DropLaw (s : State) : Prop where
  monitor : s.drop.Lawful
  outstanding : ∀ x ∈ s.drop.pending, x.outstanding = s.queue.tagged x.number
  tags : ∀ e ∈ s.queue.entries, ∀ n, e.dropTag = some n → ∃ x ∈ s.drop.pending, x.number = n
  tagOrder : (s.queue.entries.filterMap Entry.dropTag).Pairwise s.drop.AsYoung

/-! ### The DROP records (R152, R100, R103) -/

/-- The drop number of a DROP record. -/
def Record.dropNumber (x : Record) : Option Tick :=
  match x.payload with
  | .drop r => some r.number
  | .start _ => none
  | .battery _ => none
  | .commitFail _ => none
  | .dieOffline _ => none
  | .profile _ => none
  | .refusal _ => none
  | .sensor _ => none

/-- The drop numbers of the ring's DROP records, oldest first, then those of the pending drops. -/
def State.dropNumbers (s : State) : List Tick :=
  s.report.ring.filterMap Record.dropNumber ++ s.drop.pending.map Drop.number

/-- The steps of start-up before the end of its note scan, where the counters are loaded (R103, R170). -/
def Sequence.beforeLoad : Sequence → Bool
  | .settling _ => true
  | .probeDieZero => true
  | .profileScan .startUp _ _ _ => true
  | .profileScan .lineReset _ _ _ => false
  | .probeAdded _ => true
  | .noteScan _ _ => true
  | .none => false
  | .openedErase _ => false
  | .openedProgram _ => false
  | .lineProbe _ => false
  | .lineWait => false
  | .drain => false
  | .flushNote => false

/-- The ring's DROP records stand in the order of numbering, one drop after another, and the pending drops follow them
up to the counter (R152, R100); while the counter is not loaded no DROP record is in the ring (R103). -/
structure State.DropRecordLaw (s : State) : Prop where
  numbers : ∀ i n, s.dropNumbers[i]? = some n → n = s.drop.counter - BitVec.ofNat 32 (s.dropNumbers.length - 1 - i)
  unloaded : s.drop.loaded = false → s.report.ring.filterMap Record.dropNumber = []
  before : s.control.sequence.beforeLoad = true → s.drop.loaded = false

/-! ### The Die Scheduler (R47, R65, R69) -/

def DieState.committing : DieState → Bool
  | .idle => false
  | .offline => false
  | .busy op => decide (op.requester = .commit)

/-- The entries of a die, in acceptance order. -/
def HoldQueue.onDie (q : HoldQueue) (d : Die) : List Entry := q.entries.filter (fun e => rowOnDie d e.row)

/-- A commit is in progress at a die exactly where the die's oldest entry is COMMITTING, and no younger entry is (R47,
R49). -/
structure State.CommitLaw (s : State) : Prop where
  oldest : ∀ d e, (s.queue.onDie d).head? = some e → ((s.die d).committing = true ↔ e.progress = .committing)
  absent : ∀ d, s.queue.onDie d = [] → (s.die d).committing = false
  younger : ∀ d, ∀ e ∈ (s.queue.onDie d).tail, e.progress = .waiting

/-- The patience counters lie in 0 to 8 (R69), the failure count in 16 bits (R39), and the transfers that have the lines
or wait for them are exactly those of the dies in a transfer phase, each once (R65). -/
structure State.SchedulerLaw (s : State) : Prop where
  limit : 1 ≤ s.control.settings.patience ∧ s.control.settings.patience ≤ 8
  patience : ∀ d, (s.media.dies.get d).patience ≤ 8
  failures : s.media.mediaFailures ≤ 65535
  once : s.media.lines.Nodup
  transfers : ∀ d, d ∈ s.media.lines ↔ (s.die d).inTransfer = true

/-! ### Pages -/

/-- The page is in its canonical form. -/
def Page.Canonical (p : Page) : Prop := Page.wf p = true

def ServiceOp.PagesLawful : ServiceOp → Prop
  | .probe _ => True
  | .profileRead _ => True
  | .noteRead _ => True
  | .noteErase => True
  | .openedNote => True
  | .flushNote image => Page.Canonical image

def Requester.PagesLawful : Requester → Prop
  | .front _ => True
  | .commit => True
  | .service r => r.op.PagesLawful

def Phase.PagesLawful : Phase → Prop
  | .command => True
  | .busy _ _ _ => True
  | .readout => True
  | .status data => Page.Canonical data

def DieState.PagesLawful : DieState → Prop
  | .idle => True
  | .offline => True
  | .busy op => Page.Canonical op.image ∧ op.phase.PagesLawful ∧ op.requester.PagesLawful

def Sequence.PagesLawful : Sequence → Prop
  | .none => True
  | .settling _ => True
  | .probeDieZero => True
  | .profileScan _ _ best _ => ∀ x, best = some x → Page.Canonical x.2
  | .probeAdded _ => True
  | .noteScan _ best => ∀ x, best = some x → Page.Canonical x.2
  | .openedErase _ => True
  | .openedProgram _ => True
  | .lineProbe _ => True
  | .lineWait => True
  | .drain => True
  | .flushNote => True

/-- Every page the part holds is in canonical form: the reserved slot's buffer, the entries' images, a consumption
write's image, what each die is sent or has given, the scan's page and the FLUSH note that waits. -/
structure State.PageLaw (s : State) : Prop where
  reserved : ∀ p, s.queue.reserved = some p → Page.Canonical p
  entries : ∀ e ∈ s.queue.entries, Page.Canonical e.image
  consumption : ∀ p, s.report.consumption = some p → Page.Canonical p
  services : ∀ r ∈ s.media.services, r.op.PagesLawful
  dies : ∀ d, (s.die d).PagesLawful
  sequence : s.control.sequence.PagesLawful

/-! ### Words of the statements -/

/-- The command that is this operation's byte (R19). -/
def OpKind.command : OpKind → Instr
  | .read => .read
  | .program => .program
  | .erase => .erase

/-- A write is taking its data or waiting for END (R21). -/
def FrontState.isReceiving : FrontState → Bool
  | .idle => false
  | .addressing _ _ => false
  | .loading _ _ => false
  | .delivering _ => false
  | .receiving _ _ => true
  | .awaiting => false

/-- A READ waits for its page (R21). -/
def FrontState.isLoading : FrontState → Bool
  | .idle => false
  | .addressing _ _ => false
  | .loading _ _ => true
  | .delivering _ => false
  | .receiving _ _ => false
  | .awaiting => false

/-- The queue and its reserved slot once a transaction has ended without END (R41). -/
def State.queueReleased (s : State) : HoldQueue :=
  if s.front.state.isReceiving then { s.queue with reserved := none } else s.queue

/-- Report Memory once a transaction has ended without END: a consumption write's bytes are discarded (R22). -/
def State.reportReleased (s : State) : ReportMemory :=
  if s.front.state.isReceiving then { s.report with consumption := none } else s.report

/-- The dies and requests once a READ in LOADING has been abandoned: withdrawn while it waits, marked while it is in
progress (R78). -/
def State.mediaReleased (s : State) : Scheduler :=
  if s.front.state.isLoading then
    { s.media with frontRead := none, dies := s.media.dies.map DieRecord.abandon }
  else s.media

/-- Conditions 1 to 4 of R5 for an enabled candidate, against the final entries of the lower windows; a disabled one is
valid. -/
def Window.Acceptable (installed : Nat) (lower : List Window) (c : Window) : Prop :=
  c.enabled = true →
    2 ≤ c.base ∧ 1 ≤ c.extent ∧ c.extent ≤ 8192 ∧ c.base + c.extent ≤ installed * 8192 ∧
    (∀ b ∈ [0, 1], ¬ (c.base ≤ b ∧ b < c.base + c.extent)) ∧
    ∀ w ∈ lower, w.enabled = true →
      ∀ b, ¬ (c.base ≤ b ∧ b < c.base + c.extent ∧ w.base ≤ b ∧ b < w.base + w.extent)

/-- The end of the onset that started at `start` (R85): a listed one takes its end tick and adds its duration; one that
is not listed leaves the drop as it was. -/
def Drop.OnsetEnds (start stop : Tick) (x y : Drop) : Prop :=
  (∃ earlier, x.onsets = earlier ++ [{ start := start, stop := none }] ∧ (∀ o ∈ earlier, o.stop ≠ none) ∧
    y = { x with
      onsets := earlier ++ [{ start := start, stop := some stop }]
      airborne := min 4294967295 (x.airborne + (stop - start).toNat) }) ∨
  ((∀ o ∈ x.onsets, o.stop ≠ none) ∧ x.airborne ≤ 4294967295 ∧ y = x)

/-- The close of the open drop (R91, R92, R94): an open onset and an open impact measurement end at the close tick; the width is
kept for a drop of any kind (log entry 31). -/
def Drop.ClosesTo (openOnset impactStart : Option Tick) (stamp : Tick) (ceiling : Bool) (x y : Drop) : Prop :=
  ∃ z : Drop,
    (openOnset = none ∧ z = x ∨ ∃ start, openOnset = some start ∧ x.OnsetEnds start stamp z) ∧
    y = { z with
      condition := .closed stamp
      ceilingMark := z.ceilingMark || ceiling
      longestWidth :=
        match impactStart with
        | none => z.longestWidth
        | some start => some (max (min 65535 (stamp - start).toNat) (z.longestWidth.getD 0)) }

/-- Conditions 1 and 2 of R100. -/
def Drop.isReady (x : Drop) : Prop := x.isClosed ∧ x.outstanding = 0

/-- The mark of a drop that opens or reopens in FLUSHING or SPENT (R104). -/
def ServiceState.opensDipped (v : ServiceState) : Bool := v == .flushing || v == .spent

/-- The drop an FFALL rise or a FIMP rise opens, before its counts (R84). -/
def Drop.fresh (kind : DropKind) (number stamp : Tick) (powerDip : Bool) : Drop :=
  { number := number, kind := kind, condition := .opened, openTick := stamp, onsets := [], measure := none
    onsetCount := 0, airborne := 0, falls := 0, impacts := 0, longestWidth := none, postedHeld := 0
    awaitingHeld := 0, failed := 0, outstanding := 0, ceilingMark := false, powerDip := powerDip }

/-- An onset that begins is listed while fewer than 8 are (R86). -/
def listOnset (onsets : List Onset) (stamp : Tick) : List Onset :=
  if onsets.length < 8 then onsets ++ [{ start := stamp, stop := none }] else onsets

/-- The number in `n` bytes of a list from a column on, least significant byte first (10_formats.md). -/
def bytesField (bytes : List Byte) : Nat → Nat → Nat
  | _, 0 => 0
  | c, n + 1 => (bytes.getD c 0#8).toNat + 256 * bytesField bytes (c + 1) n

/-- The Service Controller's sequence stands at a step and awaits the request it has just made (R66, R170). -/
def State.asking (s : State) (step : Sequence) (op : ServiceOp) : State :=
  { s with
    control := { s.control with sequence := step }
    media := { s.media with services := s.media.services ++ [{ op := op, standing := .awaited }] } }

/-- The end of a start-up or a dip recovery: the START record (R180, R147), SERVICE, and after a recovery the front IDLE with
its latched fields clear (R145 steps 5 to 7). -/
def State.opened (s : State) (opening : Opening) : State :=
  match opening with
  | .startUp info =>
    { s with
      control := { s.control with state := .service, sequence := .none }
      report := s.report.append s.control.settings.mask s.tick (.start
        { cause := info.cause, notePage := info.notePage, counts := info.counts, flushNote := none, rows := info.rows
          drained := none, answering := s.answering, noteFault := !s.control.noteUsable, eventTick := none }) }
  | .dipRecovery =>
    { s with
      control := { s.control with state := .service, sequence := .none }
      front := { s.front with state := .idle, fail := false, refused := false, posted := false }
      report := s.report.append s.control.settings.mask s.tick (.start
        { cause := .dipRecovery, notePage := none
          counts := if s.control.flushNote = none then none else some s.control.counts
          flushNote := s.control.flushNote, rows := none, drained := none, answering := s.answering
          noteFault := !s.control.noteUsable, eventTick := some s.control.dipStart }) }

/-- The OPENED note where the note block is usable, erased first where the next note page is 127 or 128, else what follows it
(R140, R146, R178). -/
def State.Opens (s : State) (opening : Opening) (t : State) : Prop :=
  (s.control.noteUsable = false ∧ t = s.opened opening) ∨
  ∃ page, s.control.noteUsable = true ∧ s.control.nextNotePage = some page ∧
    t = if 127 ≤ page then s.asking (.openedErase opening) .noteErase
      else s.asking (.openedProgram opening) .openedNote

/-- The loads of the two counters: every provisional number moves by its base, and drops that are ready are then reported
(R103, R153). -/
def State.countersLoaded (s : State) (dropBase sequenceBase : Tick) : State :=
  State.reportDrops { s with
    drop := { s.drop with
      pending := s.drop.pending.map (fun x => { x with number := x.number + dropBase })
      counter := s.drop.counter + dropBase, loaded := true }
    report := { s.report with
      ring := s.report.ring.map (fun x => { x with number := x.number + sequenceBase })
      slots := { address := s.report.slots.address.map (· + sequenceBase)
                 closed := s.report.slots.closed.map (· + sequenceBase)
                 service := s.report.slots.service.map (· + sequenceBase) }
      next := s.report.next + sequenceBase, loaded := true } }

/-- The settings and ATTN after an apply (R174, R164): the windows as R5 settles them from `before`, the page in force, and
the masking of ATTN as given. -/
def State.withProfile (s : State) (p : ProfileImage) (before : List Window) (installed : Nat) (page : Option Nat)
    (masked : Bool) : State :=
  { s with
    control := { s.control with
      settings := { p.live with windows := (settleWindows installed before p.live.windows []).1 }
      profilePage := page }
    report := { s.report with
      masked := masked, attn := !masked && s.report.ring.any (fun x => p.live.mask.getLsbD x.payload.code) } }

/-- The PROFILE record of an image that was applied (R179). -/
def State.profileApplied (s : State) (source : ApplySource) (page generation : Nat) (rejected : List Nat)
    (clamped : Bool) (pagesFailed : Option Nat) : State :=
  s.record (.profile
    { source := source, outcome := if rejected = [] then .applied else .partly, page := some page
      generation := some generation, rejection := rejected, reason := none, clamped := clamped
      pending := s.control.startUpPending, pagesFailed := pagesFailed })

/-- The PROFILE record of an image that was rejected (R179). -/
def State.profileRejected (s : State) (source : ApplySource) (page : Nat) (reason : RejectReason) (clamped : Bool)
    (pagesFailed : Option Nat) : State :=
  s.record (.profile
    { source := source, outcome := .rejected, page := some page, generation := none, rejection := []
      reason := some reason, clamped := clamped, pending := s.control.startUpPending, pagesFailed := pagesFailed })

/-- The PROFILE record of a scan that gave no page (R179). -/
def State.profileAbsent (s : State) (source : ApplySource) (outcome : ApplyOutcome) (pagesFailed : Option Nat) : State :=
  s.record (.profile
    { source := source, outcome := outcome, page := none, generation := none, rejection := [], reason := none
      clamped := false, pending := s.control.startUpPending, pagesFailed := pagesFailed })

/-- The counts of an entry that leaves in FLUSHING or LINE_RESET (R138, R182). -/
def State.countedLeaving (s : State) (passed : Bool) : Controller :=
  match s.control.state, passed with
  | .flushing, true =>
    { s.control with counts := { s.control.counts with committed := s.control.counts.committed + 1 } }
  | .flushing, false => { s.control with counts := { s.control.counts with failed := s.control.counts.failed + 1 } }
  | .lineReset, true =>
    { s.control with lineReset := { s.control.lineReset with committed := s.control.lineReset.committed + 1 } }
  | .lineReset, false =>
    { s.control with lineReset := { s.control.lineReset with failed := s.control.lineReset.failed + 1 } }
  | .starting, _ => s.control
  | .service, _ => s.control
  | .spent, _ => s.control

/-- The end of a line reset: the START record with its counts, and SERVICE (R180, R183). -/
def State.lineResetEnded (s : State) : State :=
  { s with
    control := { s.control with state := .service, sequence := .none }
    report := s.report.append s.control.settings.mask s.tick (.start
      { cause := .lineReset, notePage := none, counts := none, flushNote := none, rows := none
        drained := some s.control.lineReset, answering := s.answering, noteFault := !s.control.noteUsable
        eventTick := some s.control.lrstTick }) }

/-- The end of the flush: the flush note outcome and SPENT; a dip recovery begins at once with the supply high (R137,
R144). -/
def State.flushEnded (s : State) (outcome : FlushNoteOutcome) : State :=
  let spent : State :=
    { s with control := { s.control with flushNote := some outcome, state := .spent, sequence := .none } }
  if s.pins.supgood then spent.beginRecovery else spent

/-- What an event may still ask for: a grant of an IDLE die (R67, R68), the probe of an OFFLINE die begun and of any other
passed (R77), and the failures at once at an OFFLINE die (R75). -/
def State.MayTake (s : State) : Action → Prop
  | .grant d what => s.die d = .idle ∧ s.grantFor d = some what
  | .startProbe r => r ∈ s.media.services ∧ r.op.isProbe = true ∧ s.die r.op.die = .offline
  | .passProbe r => r ∈ s.media.services ∧ r.op.isProbe = true ∧ s.die r.op.die ≠ .offline
  | .failService r => r ∈ s.media.services ∧ r.op.isProbe = false ∧ s.die r.op.die = .offline
  | .failFront row => s.media.frontRead = some row ∧ ∃ d, rowOnDie d row = true ∧ s.die d = .offline
  | .failCommit d => s.die d = .offline ∧ s.offer d ≠ none

/-- The line reset's wait is over (R183), or the drain is (R137). -/
def State.SequenceDue (s : State) : Prop :=
  (s.control.sequence = .lineWait ∧ s.queue.entries = []) ∨
  (s.control.sequence = .drain ∧
    (s.queue.entries = [] ∨ s.control.budget ≤ 1 ∧ ∀ e ∈ s.queue.entries, e.progress = .waiting))

/-- One consequence: something that may be taken, with a choice among several counted, or the Service Controller's own
condition where nothing may be taken. -/
def State.Consequence (s t : State) : Prop :=
  (∃ a, s.MayTake a ∧ (t = s.perform a ∨ t = State.perform { s with free := s.free + 1 } a)) ∨
  ((∀ a, ¬ s.MayTake a) ∧ s.SequenceDue ∧ s.sequenceAction = some t)

/-- No consequence is left. -/
def State.AtRest (s : State) : Prop := (∀ a, ¬ s.MayTake a) ∧ ¬ s.SequenceDue

end Sys2Proof.Machine
end

