-- ==== Sys2Proof/Certificates/Slice0/Obligations.lean ====
section
/-! DEFINITION. The statements for the provers. -/

section Statements

open Sys2Proof Sys2Proof.Machine

/-! ### Steps and power-on -/

/-- A step takes the front command and runs it on the rest of the queue; with no command waiting the block idles (the
idling is the model's choice, log entry 1). -/
def Obligations.StepTakesTheFrontCommand : Prop :=
  (∀ (s : State) (c : Instr) (rest : List Instr),
    s.pending = c :: rest → step s = exec c (s.withPending rest)) ∧
  ∀ s : State, s.pending = [] → step s = .next s

/-- No command stops the block, in any state. -/
def Obligations.EveryCommandCompletes : Prop := ∀ (c : Instr) (s : State), ∃ t, exec c s = .next t

/-- POWER_ON sets every block (R169, R21, R26, R32, R33, R56, R64, R81, R107, R111, R150, R153, R154, R163, R184), with the
default settings of R4, R69, R73, R82, R123 and R187; the commands that wait and the count of open choices, which are the
model's own, stay. The tick of LRST, the dip start and the undriven data lines are the model's choice (log entry 5). -/
def Obligations.PowerOnSetsEveryBlock : Prop :=
  ∀ (levels : LineLevels) (s : State), exec (.powerOn levels) s = .next
    { tick := 0
      pins := levels
      front := { state := .idle, fail := false, refused := false, posted := false, counters := ⟨0, 0, 0, 0, 0, 0⟩
                 statusSelected := false, dataOut := none }
      queue := { entries := [], reserved := none, failedRows := [] }
      media := { dies := ⟨⟨.offline, 0⟩, ⟨.offline, 0⟩, ⟨.offline, 0⟩, ⟨.offline, 0⟩⟩
                 lines := [], frontRead := none, services := [], mediaFailures := 0 }
      drop := { state := .calm, suspended := none, ffallSince := none, mergeTimer := .stopped, settleTimer := .stopped
                ceilingTimer := .stopped, latched := none, pending := [], counter := 0, loaded := false, total := 0
                openOnset := none, impactStart := none }
      gauge := { nominalCu := 108800000, learned := 108800000, remaining := 0, state := .unknown, anchor := false
                 drawn := 0, temperature := -20, firstReading := false, stale := true, outOfRange := false
                 gateCount := 0, gateTicks := 0, gates := 0, boundaryTaken := false, net := 0, buckets := []
                 derived := { factor := 150, usable := 63750000, remaining := none, soc := none, level := .unknown
                              minutes := none }
                 changePending := false, periods := 0, rawDischarge := 0, rawCharge := 0, tallying := true
                 holding := true, held := [], seated := levels.pkpres, weight := 1600 }
      control := { state := .starting, sequence := .settling 0, budget := 0, counts := ⟨0, 0, 0⟩, flushNote := none
                   rowOverflow := false, noteUsable := true, nextNotePage := none, installed := 1, rres := 40
                   settings := { serviceAccess := false, knockHold := true, patience := 4, dieTimeoutMs := 50
                                 mergeMs := 20, settleMs := 250, ceilingMs := 4000, latency := 0, mask := 0x00B9#16
                                 weight := 1600, nominal := 6800, low := 15, critical := 5, zeroCount := 10000
                                 perDegree := 40, derate := ⟨⟨-20, 150⟩, ⟨0, 205⟩, ⟨25, 256⟩, ⟨60, 256⟩⟩
                                 interval := 60
                                 windows := ⟨true, 2, 8190, true, false⟩ :: List.replicate 13 ⟨false, 0, 1, false, false⟩ }
                   profilePage := none, startUpPending := false, lineReset := ⟨0, 0, false⟩, lrstTick := 0
                   dipStart := 0 }
      report := { ring := [], next := 0, loaded := false, slots := ⟨none, none, none⟩, masked := true, attn := false
                  consumption := none }
      free := s.free
      pending := s.pending }

/-- After power-on with any line levels, and so after reset, every law of Sys2Proof/Safety.lean holds. The levels of
State.reset are the model's choice (log entry 4). -/
def Obligations.PowerOnMeetsEveryLaw : Prop :=
  (State.reset = State.powerOn ⟨false, false, true, true, true⟩ 0 []) ∧
  ∀ (levels : LineLevels) (free : Nat) (pending : List Instr),
    (State.powerOn levels free pending).ReportLaw ∧ (State.powerOn levels free pending).AddressLaw ∧
    (State.powerOn levels free pending).GaugeLaw ∧ (State.powerOn levels free pending).QueueLaw ∧
    (State.powerOn levels free pending).FailedRowLaw ∧ (State.powerOn levels free pending).DropLaw ∧
    (State.powerOn levels free pending).DropRecordLaw ∧ (State.powerOn levels free pending).CommitLaw ∧
    (State.powerOn levels free pending).SchedulerLaw ∧ (State.powerOn levels free pending).PageLaw

/-! ### The front store bus -/

/-- READ, PROGRAM, ERASE and RESET bytes. In SERVICE, with the front neither LOADING nor AWAITING, a READ, PROGRAM or ERASE
ends a transaction in progress (R22), begins the address phase (R21) and deselects the status output (R33). In STARTING and
LINE_RESET each is refused with cause STATE, and in LOADING and AWAITING with cause SEQUENCE (R25 step 1, R36, R23); in
FLUSHING and SPENT each is ignored (R37). That a byte refused deselects the status output is the model's reading (log entry
10). -/
def Obligations.OperationBytesAreTakenOrRefused : Prop :=
  (∀ (kind : OpKind) (s : State),
    s.control.state = .service → (∀ row column, s.front.state ≠ .loading row column) → s.front.state ≠ .awaiting →
    exec kind.command s = .next { s with
      front := { s.front with state := .addressing kind [], statusSelected := false }
      queue := s.queueReleased
      report := s.reportReleased }) ∧
  ((∀ (c : Instr) (s : State), c ∈ [Instr.read, .program, .erase, .reset] →
    (s.control.state = .starting ∨ s.control.state = .lineReset) →
    exec c s = .next { s with
      front := { s.front with
        statusSelected := false, refused := true
        counters := { s.front.counters with state := min 65535 (s.front.counters.state + 1) } } }) ∧
  (∀ (kind : OpKind) (s : State), s.control.state = .service →
    ((∃ row column, s.front.state = .loading row column) ∨ s.front.state = .awaiting) →
    exec kind.command s = .next { s with
      front := { s.front with
        statusSelected := false, refused := true
        counters := { s.front.counters with sequence := min 65535 (s.front.counters.sequence + 1) } } }) ∧
  ∀ (c : Instr) (s : State), c ∈ [Instr.read, .program, .erase, .status, .reset] →
    (s.control.state = .flushing ∨ s.control.state = .spent) → exec c s = .next s)

/-- STATUS selects the status output; it ends a transaction that can end, and leaves LOADING and AWAITING (R33). The status byte
holds the six fields at their bits, bits 5 and 7 zero (R32, R185); READY equals FRDY (R21), which is high in SERVICE
while the front is neither LOADING nor AWAITING. -/
def Obligations.StatusShowsTheFields : Prop :=
  (∀ s : State, s.control.state ≠ .flushing → s.control.state ≠ .spent →
    exec .status s = .next { s with
      front := { s.front with
        state := if s.front.state.isLoading ∨ s.front.state = .awaiting then s.front.state else .idle
        statusSelected := true }
      queue := s.queueReleased
      report := s.reportReleased }) ∧
  (∀ s : State,
    s.statusByte.getLsbD 0 = s.front.fail ∧ s.statusByte.getLsbD 1 = s.front.refused ∧
    s.statusByte.getLsbD 2 = s.front.posted ∧ s.statusByte.getLsbD 3 = decide (s.drop.state ≠ .calm) ∧
    s.statusByte.getLsbD 4 = s.report.attn ∧ s.statusByte.getLsbD 5 = false ∧
    s.statusByte.getLsbD 6 = s.frdy ∧
    s.frdy = (decide (s.control.state = .service) && !s.front.state.isLoading && decide (s.front.state ≠ .awaiting)) ∧
    s.statusByte.getLsbD 7 = false)

/-- RESET in SERVICE. Outside AWAITING the operation is abandoned (R34). In AWAITING an attached entry still WAITING is
withdrawn and the front is IDLE; one COMMITTING is detached, and a detached one stays, with the front in AWAITING (R35). Of
a READ abandoned in LOADING, the operation in progress goes on, marked so that its result is discarded, and nothing else at
the dies changes (R78). -/
def Obligations.ResetAbandonsTheOperation : Prop :=
  (∀ r : DieRecord, r.abandon.patience = r.patience ∧
    (∀ op abandoned, r.state = .busy op → op.requester = .front abandoned →
      r.abandon.state = .busy { op with requester := .front true }) ∧
    ((∀ op abandoned, r.state = .busy op → op.requester ≠ .front abandoned) → r.abandon.state = r.state)) ∧
  (∀ s : State, s.control.state = .service → s.front.state ≠ .awaiting →
    exec .reset s = .next { s with
      front := { s.front with state := .idle, fail := false, refused := false, posted := false, statusSelected := false }
      queue := s.queueReleased
      media := s.mediaReleased
      report := s.reportReleased }) ∧
  (∀ (s : State) (older : List Entry) (e : Entry),
    s.control.state = .service → s.front.state = .awaiting →
    s.queue.entries = older ++ [e] → (∀ x ∈ older, x.disposition = .posted) →
    (e.disposition = .awaiting .attached → e.progress = .waiting →
      exec .reset s = .next (State.dropDeparted { s with
        front := { s.front with state := .idle, fail := false, refused := false, posted := false, statusSelected := false }
        queue := { s.queue with entries := older } } e.dropTag .withdrawn)) ∧
    (∀ a, e.disposition = .awaiting a → (a = .detached ∨ e.progress = .committing) →
      exec .reset s = .next { s with
        front := { s.front with fail := false, refused := false, posted := false, statusSelected := false }
        queue := { s.queue with entries := older ++ [{ e with disposition := .awaiting .detached }] } }))

/-- The five operation bytes are the five commands (R19, R185), and a word of 8 bits that spells one puts that command at the
front of the queue; that other words spell none is the model's choice (log entry 1). Bytes that name no operation (R19) and
strobes that the front state does not expect (R24) change nothing. That UNKNOWN_OPERATION_BYTE with a byte that does name an
operation acts as that operation is the model's choice (log entry 26). -/
def Obligations.UnexpectedStrobesChangeNothing : Prop :=
  (frontCommand 0x1B#8 = .read ∧ frontCommand 0x5C#8 = .program ∧ frontCommand 0x6D#8 = .erase ∧
    frontCommand 0x71#8 = .status ∧ frontCommand 0xF3#8 = .reset) ∧
  (∀ (nbits w : Nat) (c : Instr), decodeTableWord nbits w = some c ↔
    nbits = 8 ∧ (w, c) ∈ [(0x1B, Instr.read), (0x5C, .program), (0x6D, .erase), (0x71, .status), (0xF3, .reset)]) ∧
  (∀ (s : State) (nbits w : Nat), s.withFetchWord nbits w = { s with
    pending := match decodeTableWord nbits w with | none => s.pending | some c => c :: s.pending }) ∧
  (∀ (byte : Byte) (s : State), byte ∉ [0x1B#8, 0x5C#8, 0x6D#8, 0x71#8, 0xF3#8] →
    frontCommand byte = .unknownOperationByte byte ∧ exec (.unknownOperationByte byte) s = .next s) ∧
  (∀ (byte : Byte) (s : State), exec (.unknownOperationByte byte) s = exec (frontCommand byte) s) ∧
  (∀ (byte : Byte) (s : State), (∀ kind taken, s.front.state ≠ .addressing kind taken) →
    exec (.addressByte byte) s = .next s) ∧
  (∀ (byte : Byte) (s : State), (∀ op next, s.front.state ≠ .receiving op next) → exec (.dataByte byte) s = .next s) ∧
  (∀ (byte : Byte) (s : State) (op : Translated) (next : Nat), s.front.state = .receiving op next → op.kind = .erase →
    exec (.dataByte byte) s = .next s) ∧
  (∀ s : State, (∀ op next, s.front.state ≠ .receiving op next) → exec .endStrobe s = .next s) ∧
  ∀ (c : Instr) (byte : Byte) (s : State), c ∈ [Instr.addressByte byte, .dataByte byte, .endStrobe] →
    (s.control.state = .flushing ∨ s.control.state = .spent) → exec c s = .next s

/-- The first four address bytes are kept (R19); the five form the row, the column and the qualifiers (R19, R20). -/
def Obligations.AddressBytesFormTheAddress : Prop :=
  (∀ (byte : Byte) (s : State) (kind : OpKind) (taken : List Byte),
    s.control.state = .service → s.front.state = .addressing kind taken → taken.length < 4 →
    exec (.addressByte byte) s = .next { s with front := { s.front with state := .addressing kind (taken ++ [byte]) } }) ∧
  (∀ row2 row1 row0 column1 column0 : Byte,
    let a := addressOf row2 row1 row0 column1 column0
    a.row.toNat = row2.toNat * 65536 + row1.toNat * 256 + row0.toNat ∧
    a.column = (column1.toNat * 256 + column0.toNat) % 8192 ∧
    a.absolute = column1.getLsbD 7 ∧ a.through = column1.getLsbD 6 ∧ a.reserved = column1.getLsbD 5)

/-- A refusal at the end of the address phase (R20, R25): the front is IDLE, REFUSED is set, the cause is counted, and a
cause that is recorded reaches Report Memory (R155). -/
def Obligations.AddressPhaseRefuses : Prop :=
  ∀ (s : State) (kind : OpKind) (row2 row1 row0 column1 column0 : Byte) (cause : RefusalCause),
    s.control.state = .service → s.front.state = .addressing kind [row2, row1, row0, column1] →
    screen s.control.settings s.control.installed kind (addressOf row2 row1 row0 column1 column0) = .refused cause →
    ∃ counters report,
      exec (.addressByte column0) s = .next { s with
        front := { s.front with state := .idle, refused := true, counters := counters }
        report := report } ∧
      (cause = .qualifier ∧ report = s.report ∧
         counters = { s.front.counters with qualifier := min 65535 (s.front.counters.qualifier + 1) } ∨
       cause = .address ∧
         counters = { s.front.counters with address := min 65535 (s.front.counters.address + 1) } ∧
         report = s.report.refuse s.control.settings.mask .address kind (row2 ++ row1 ++ row0)
           (column1.getLsbD 7) s.tick ∨
       cause = .closed ∧
         counters = { s.front.counters with closed := min 65535 (s.front.counters.closed + 1) } ∧
         report = s.report.refuse s.control.settings.mask .closed kind (row2 ++ row1 ++ row0)
           (column1.getLsbD 7) s.tick ∨
       cause = .service ∧
         counters = { s.front.counters with service := min 65535 (s.front.counters.service + 1) } ∧
         report = s.report.refuse s.control.settings.mask .service kind (row2 ++ row1 ++ row0)
           (column1.getLsbD 7) s.tick)

/-- What Report Memory does with a record of any kind (R152, R154, R164): it joins the young end with the next number, count 1
and the present tick; of 256 records the oldest is discarded first, and a discarded REFUSAL record frees its slot; ATTN is
evaluated by the mask's bit of each record's kind (R163, 10_formats.md). What it does with a recorded refusal (R155): with the
cause's slot empty a record is appended and the slot names it; else the record the slot names counts the repeat and shows the
latest. -/
def Obligations.RefusalIsRecordedOrCoalesced : Prop :=
  (∀ (r : ReportMemory) (mask : BitVec 16) (stamp : Tick) (payload : Payload), r.Lawful mask →
    let t := r.append mask stamp payload
    t.ring = (if r.ring.length = 256 then r.ring.tail else r.ring) ++
      [{ number := r.next, count := 1, stamp := stamp, payload := payload }] ∧
    t.next = r.next + 1 ∧ t.loaded = r.loaded ∧ t.masked = r.masked ∧ t.consumption = r.consumption ∧
    t.attn = (!r.masked && t.ring.any (fun x => mask.getLsbD x.payload.code)) ∧
    ∀ c : RecordedCause,
      (∀ oldest, r.ring.length = 256 → r.ring.head? = some oldest → oldest.refusalOf c → t.slots.get c = none) ∧
      ((r.ring.length < 256 ∨ ∀ oldest, r.ring.head? = some oldest → ¬ oldest.refusalOf c) →
        t.slots.get c = r.slots.get c)) ∧
  (∀ payload : Payload, payload.code = (match payload with
    | .start _ => 0 | .drop _ => 1 | .battery _ => 2 | .commitFail _ => 3
    | .dieOffline _ => 4 | .profile _ => 5 | .refusal _ => 6 | .sensor _ => 7)) ∧
  (∀ (s : State) (payload : Payload),
    s.record payload = { s with report := s.report.append s.control.settings.mask s.tick payload }) ∧
  ∀ (r : ReportMemory) (mask : BitVec 16) (cause : RecordedCause) (op : OpKind) (row : BitVec 24) (absolute : Bool)
    (stamp : Tick), r.Lawful mask →
    (r.slots.get cause = none →
      let t := r.refuse mask cause op row absolute stamp
      t.ring = (if r.ring.length = 256 then r.ring.tail else r.ring) ++
        [{ number := r.next, count := 1, stamp := stamp
           payload := .refusal { cause := cause, firstOp := op, firstRow := row, firstAbsolute := absolute
                                 lastOp := op, lastRow := row, lastTick := stamp } }] ∧
      t.next = r.next + 1 ∧ t.slots.get cause = some r.next ∧
      ∃ slots, t = { r.append mask stamp (.refusal
          { cause := cause, firstOp := op, firstRow := row, firstAbsolute := absolute
            lastOp := op, lastRow := row, lastTick := stamp }) with slots := slots } ∧
        ∀ c, c ≠ cause → slots.get c = (r.append mask stamp (.refusal
          { cause := cause, firstOp := op, firstRow := row, firstAbsolute := absolute
            lastOp := op, lastRow := row, lastTick := stamp })).slots.get c) ∧
    ∀ older younger (x : Record) (y : RefusalRecord),
      r.ring = older ++ x :: younger → x.payload = .refusal y → y.cause = cause →
      r.refuse mask cause op row absolute stamp = { r with
        ring := older ++
          { x with count := min 65535 (x.count + 1)
                   payload := .refusal { y with lastOp := op, lastRow := row, lastTick := stamp } } :: younger }

/-- A PROGRAM or ERASE that passes screening (R29): REFUSED is cleared, the front is RECEIVING at the operation's column,
and a slot of 0xFF bytes is reserved, or for a consumption write an image in Report Memory (R41, R156). -/
def Obligations.WriteEntersReceiving : Prop :=
  ∀ (s : State) (kind : OpKind) (row2 row1 row0 column1 column0 : Byte) (op : Translated),
    s.control.state = .service → s.front.state = .addressing kind [row2, row1, row0, column1] → kind ≠ .read →
    screen s.control.settings s.control.installed kind (addressOf row2 row1 row0 column1 column0) = .passed op →
    op.kind = kind ∧
    ((∀ page, op.path ≠ .report page) → exec (.addressByte column0) s = .next { s with
      front := { s.front with state := .receiving op op.column, refused := false }
      queue := { s.queue with reserved := some [] } }) ∧
    (∀ page, op.path = .report page → exec (.addressByte column0) s = .next { s with
      front := { s.front with state := .receiving op op.column, refused := false }
      report := { s.report with consumption := some [] } })

/-- A READ that passes screening (R27): a report page and a page over a queued erase are delivered at once (R59, R61), FAIL
clear or set by the failed-row table (R58); any other asks for a media read with the front in LOADING. -/
def Obligations.ReadDeliversOrLoads : Prop :=
  ∀ (s : State) (row2 row1 row0 column1 column0 : Byte) (op : Translated),
    s.control.state = .service → s.front.state = .addressing .read [row2, row1, row0, column1] →
    screen s.control.settings s.control.installed .read (addressOf row2 row1 row0 column1 column0) = .passed op →
    (∀ page, op.path = .report page → exec (.addressByte column0) s = .next { s with
      front := { s.front with
        state := .delivering (s.reportPage page op.column), fail := false, refused := false
        statusSelected := false } }) ∧
    (∀ row younger, op.path = .snoop row → afterErase (row / 128) s.queue.entries = some younger →
      exec (.addressByte column0) s = .next { s with
        front := { s.front with
          state := .delivering (pageBytes (composeOver [] row younger) op.column (4224 - op.column))
          fail := s.queue.covered row, refused := false, statusSelected := false } }) ∧
    (∀ row, op.path = .snoop row → afterErase (row / 128) s.queue.entries = none →
      exec (.addressByte column0) s = .next (State.settled { s with
        front := { s.front with state := .loading row op.column, refused := false }
        media := { s.media with frontRead := some row } }))

/-- DATA_BYTE of a PROGRAM goes to the next column; a byte past column 4223 is discarded (R29). READ_STROBE (R24, R28, R33,
R37): the next byte of a delivery, 0xFF past its end, the status byte while the status output is selected, else 0xFF; in
FLUSHING and SPENT the lines are not driven. -/
def Obligations.DataBytesAndReadStrobesAct : Prop :=
  (∀ (byte : Byte) (s : State) (op : Translated) (next : Nat) (image : Page),
    s.control.state = .service → s.front.state = .receiving op next → op.kind = .program → Page.Canonical image →
    ∃ t written, exec (.dataByte byte) s = .next t ∧
      (∀ c, readCell written c = if c = next ∧ next < 4224 then byte else readCell image c) ∧
      ((∀ page, op.path ≠ .report page) → s.queue.reserved = some image →
        t = { s with
          front := { s.front with state := .receiving op (if next < 4224 then next + 1 else next) }
          queue := { s.queue with reserved := some written } }) ∧
      (∀ page, op.path = .report page → s.report.consumption = some image →
        t = { s with
          front := { s.front with state := .receiving op (if next < 4224 then next + 1 else next) }
          report := { s.report with consumption := some written } })) ∧
  (∀ s : State, (s.control.state = .flushing ∨ s.control.state = .spent) →
    exec .readStrobe s = .next { s with front := { s.front with dataOut := none } }) ∧
  ∀ s : State, s.control.state ≠ .flushing → s.control.state ≠ .spent →
    (∀ byte rest, s.front.state = .delivering (byte :: rest) →
      exec .readStrobe s = .next { s with
        front := { s.front with state := .delivering rest, dataOut := some byte } }) ∧
    (s.front.state = .delivering [] →
      exec .readStrobe s = .next { s with front := { s.front with dataOut := some 0xFF#8 } }) ∧
    ((∀ rest, s.front.state ≠ .delivering rest) →
      exec .readStrobe s = .next { s with front := { s.front with
        dataOut := some (if s.front.statusSelected then s.statusByte else 0xFF#8) } })

/-- END on the QUEUE or PROFILE path (R30, R42, R43, R46): the entry joins the queue as youngest; under a hold it is POSTED
where the five conditions hold, tagged with the current drop and reported to it (R97); in CALM its commit is offered
(R47, R48). -/
def Obligations.EndFormsTheEntry : Prop :=
  ∀ (s : State) (op : Translated) (next row : Nat),
    s.control.state = .service → s.front.state = .receiving op next → op.kind ≠ .read →
    (op.path = .queue row ∨ op.path = .profile row) →
    ∃ (posted : Bool) (e : Entry),
      (posted = true ↔ s.drop.state ≠ .calm ∧ op.holdEligible = true ∧ op.through = false ∧ op.profileFlag = false ∧
        s.queue.entries.countP (fun x => decide (x.disposition = .posted)) < s.limit) ∧
      e = { kind := if op.kind = .erase then .erase else .program, row := row
            disposition := if posted then .posted else .awaiting .attached
            dropTag := if s.drop.state = .calm then none else some s.drop.counter
            origin := op.origin, profileFlag := op.profileFlag
            image := if op.kind = .erase then [] else s.queue.reserved.getD []
            progress := .waiting, acceptTick := s.tick } ∧
      let front := if posted then { s.front with state := .idle, posted := true, fail := false }
        else { s.front with state := .awaiting, posted := false }
      let queue := { s.queue with entries := s.queue.entries ++ [e], reserved := none }
      (s.drop.state = .calm → exec .endStrobe s = .next (State.settled { s with front := front, queue := queue })) ∧
      (s.drop.state ≠ .calm → exec .endStrobe s = .next { s with
        front := front, queue := queue
        drop := { s.drop with pending := s.drop.pending.map (fun x =>
          if x.number = s.drop.counter then
            if posted then { x with outstanding := x.outstanding + 1, postedHeld := min 65535 (x.postedHeld + 1) }
            else { x with outstanding := x.outstanding + 1, awaitingHeld := min 65535 (x.awaitingHeld + 1) }
          else x) } })

/-- END of a consumption write (R156): with the tag 0x5A3C the records through S are released and FAIL and POSTED cleared;
with another tag it is refused with cause ADDRESS and recorded with row 0xE00001 (R155). Which records are released, by d = (S
− o) mod 2^32 (R157): the next number stays, the slots of released records become empty, and ATTN is evaluated once (R164). -/
def Obligations.ConsumptionWritesRelease : Prop :=
  (∀ (s : State) (op : Translated) (next page : Nat) (image : Page),
    s.control.state = .service → s.front.state = .receiving op next → op.path = .report page →
    s.report.consumption = some image →
    (readField image 4 2 = 0x5A3C → exec .endStrobe s = .next { s with
      front := { s.front with state := .idle, fail := false, posted := false }
      report := ReportMemory.release { s.report with consumption := none } s.control.settings.mask
        (BitVec.ofNat 32 (readField image 0 4)) }) ∧
    (readField image 4 2 ≠ 0x5A3C → exec .endStrobe s = .next { s with
      front := { s.front with
        state := .idle, refused := true
        counters := { s.front.counters with address := min 65535 (s.front.counters.address + 1) } }
      report := ReportMemory.refuse { s.report with consumption := none } s.control.settings.mask .address .program
        0xE00001#24 false s.tick })) ∧
  ∀ (r : ReportMemory) (mask : BitVec 16) (through : Tick), r.Lawful mask →
    ∃ n, (r.release mask through).ring = r.ring.drop n ∧ (r.release mask through).next = r.next ∧
      (r.release mask through).attn = (!r.masked && (r.ring.drop n).any (fun x => mask.getLsbD x.payload.code)) ∧
      (∀ c number, (r.release mask through).slots.get c = some number ↔
        ∃ x ∈ r.ring.drop n, x.number = number ∧ x.refusalOf c) ∧
      (r.ring = [] → n = 0) ∧
      ∀ oldest rest, r.ring = oldest :: rest →
        let d := (through - oldest.number).toNat
        (d < r.ring.length → n = d + 1) ∧
        (r.ring.length ≤ d → d < 2147483648 → n = r.ring.length) ∧
        (2147483648 ≤ d → n = 0)

/-! ### The media side -/

/-- COMMAND_TRANSFER_END (R65, R73): the lines go to the next transfer, and the busy interval begins with the die timeout in
force. MRDY_SEEN_HIGH (R65, R74): a READ goes on to its readout, a PROGRAM or ERASE to its status read, each joining the
transfers that wait for the lines; a probe completes with pass and its die is IDLE (R77). READOUT_END (R65): the bytes of the
page are kept, and the status read joins the transfers; that a page operand is put into canonical form is the model's choice
(log entry 7). The strobes of each transfer (R38, R65, R185): operation byte, row within the die, zero column, the image of a
PROGRAM, END for a PROGRAM and an ERASE alone; 4224 bytes taken; the STATUS byte sent and one byte taken. That a die select
line is asserted exactly while its die is BUSY is the model's reading of R38 and R64 (log entry 23). -/
def Obligations.TransfersFollowThePhases : Prop :=
  (∀ (d : Die) (s : State) (op : MediaOp) (waiting : List Die),
    s.die d = .busy op → op.phase = .command → s.media.lines = d :: waiting →
    exec (.commandTransferEnd d) s = .next { s with media := { s.media with
      lines := waiting
      dies := s.media.dies.set d
        { state := .busy { op with phase := .busy s.tick s.control.settings.dieTimeoutMs 0 }
          patience := (s.media.dies.get d).patience } } }) ∧
  (∀ (d : Die) (s : State) (op : MediaOp) (start : Tick) (timeoutMs elapsed : Nat),
    s.SchedulerLaw → s.die d = .busy op → op.phase = .busy start timeoutMs elapsed →
    (∀ phase, (op.kind = .read ∧ phase = .readout ∨ (op.kind = .program ∨ op.kind = .erase) ∧ phase = .status []) →
      exec (.mrdySeenHigh d) s = .next { s with media := { s.media with
        lines := s.media.lines ++ [d]
        dies := s.media.dies.set d
          { state := .busy { op with phase := phase }, patience := (s.media.dies.get d).patience } } }) ∧
    (op.kind = .reset → exec (.mrdySeenHigh d) s = .next (State.settled (State.handResult { s with media := { s.media with
        dies := s.media.dies.set d { state := .idle, patience := (s.media.dies.get d).patience } } }
      d op.requester (.pass []) [])))) ∧
  (∀ (d : Die) (page : Page) (s : State) (op : MediaOp) (waiting : List Die),
    s.SchedulerLaw → s.die d = .busy op → op.phase = .readout → s.media.lines = d :: waiting →
    ∃ data : Page, (∀ c, Page.wf page = true → readCell data c = readCell page c) ∧ Page.Canonical data ∧
      exec (.readoutEnd d page) s = .next { s with media := { s.media with
        lines := waiting ++ [d]
        dies := s.media.dies.set d
          { state := .busy { op with phase := .status data }, patience := (s.media.dies.get d).patience } } }) ∧
  (∀ (s : State) (d : Die) (waiting : List Die) (op : MediaOp),
    s.media.lines = d :: waiting → s.die d = .busy op → s.lineTransfer = some (d, op.transfer)) ∧
  (∀ (op : MediaOp) (row : Nat),
    let within := row % 1048576
    let address : List MediaStrobe :=
      [.address (BitVec.ofNat 8 (within / 65536)), .address (BitVec.ofNat 8 (within / 256 % 256)),
       .address (BitVec.ofNat 8 (within % 256)), .address 0#8, .address 0#8]
    op.phase = .command →
    (op.row = some row →
      (op.kind = .read → op.transfer = .operation 0x1B#8 :: address) ∧
      (op.kind = .program → op.transfer = .operation 0x5C#8 :: address ++
        (List.range 4224).map (fun c => .data (readCell op.image c)) ++ [.endStrobe]) ∧
      (op.kind = .erase → op.transfer = .operation 0x6D#8 :: address ++ [.endStrobe])) ∧
    (op.row = none → op.kind = .reset → op.transfer = [.operation 0xF3#8])) ∧
  (∀ op : MediaOp,
    (op.phase = .readout → op.transfer = List.replicate 4224 .take) ∧
    ∀ data, op.phase = .status data → op.transfer = [.operation 0x71#8, .take]) ∧
  ∀ (s : State) (d : Die), s.msel d = true ↔ ∃ op, s.die d = .busy op

/-- MEDIA_OPERATION_COMPLETE (R72, R39): bit 0 of the die's status byte gives fail with cause MEDIA, which counts; the die
is IDLE, the requester is handed the result, and every consequence follows. -/
def Obligations.MediaOperationCompletes : Prop :=
  ∀ (d : Die) (status : Byte) (s : State) (op : MediaOp) (data : Page) (waiting : List Die),
    s.die d = .busy op → op.phase = .status data → s.media.lines = d :: waiting →
    let media (failures : Nat) : Scheduler := { s.media with
      lines := waiting, mediaFailures := failures
      dies := s.media.dies.set d { state := .idle, patience := (s.media.dies.get d).patience } }
    (status.getLsbD 0 = false → exec (.mediaOperationComplete d status) s =
      .next (State.settled (State.handResult { s with media := media s.media.mediaFailures } d op.requester
        (.pass data) data))) ∧
    (status.getLsbD 0 = true → exec (.mediaOperationComplete d status) s =
      .next (State.settled (State.handResult { s with media := media (min 65535 (s.media.mediaFailures + 1)) } d
        op.requester (.fail .media) data)))

/-- DIE_TIMEOUT (R73, R76, R77): once the timeout has passed the die is OFFLINE, the requester is handed the failure, a
READ, PROGRAM or ERASE counts, and a DIE_OFFLINE record is produced; a probe's record comes before its result. The order of
the record and the result is the model's reading (log entry 12). -/
def Obligations.DieTimeoutTakesTheDieOffline : Prop :=
  ∀ (d : Die) (s : State) (op : MediaOp) (start : Tick) (timeoutMs elapsed : Nat),
    s.die d = .busy op → op.phase = .busy start timeoutMs elapsed → timeoutMs * 10 ≤ elapsed →
    let media (failures : Nat) : Scheduler := { s.media with
      mediaFailures := failures
      dies := s.media.dies.set d { state := .offline, patience := (s.media.dies.get d).patience } }
    let record (cause : OfflineCause) (page : Option Nat) : Payload := .dieOffline
      { die := d, cause := cause, operation := op.kind
        requester := match op.requester with | .front _ => .front | .commit => .commit | .service _ => .service
        block := op.row.map (· / 128), page := page, busyStart := start, timeoutMs := timeoutMs }
    (op.kind = .reset → exec (.dieTimeout d) s = .next (State.settled
      (((State.record { s with media := media s.media.mediaFailures } (record .noAnswer none)).handResult d op.requester
        (.fail .timeout) [])))) ∧
    (op.kind ≠ .reset → exec (.dieTimeout d) s = .next (State.settled
      ((State.handResult { s with media := media (min 65535 (s.media.mediaFailures + 1)) } d op.requester
        (.fail .timeout) []).record (record .timeout (if op.kind = .erase then none else op.row.map (· % 128))))))

/-- A front read's result (R27, R60): the composed page is delivered from the READ's column on, and FAIL is set by the failure
or the failed-row table; an abandoned read's result is discarded (R78). A byte of the composed page is the AND of the base, or
of the erased image over the youngest queued erase of the block, with the younger queued programs of the row (R61). The
entries younger than that erase, their composition over a base, and the bytes of a page from a column on, in words. -/
def Obligations.FrontReadIsComposed : Prop :=
  (∀ (s : State) (d : Die) (row column : Nat) (result : MediaResult) (data : Page),
    (s.handResult d (.front true) result data = s) ∧
    (s.front.state = .loading row column → s.handResult d (.front false) result data = { s with
      front := { s.front with
        state := .delivering (pageBytes (s.queue.composed row data) column (4224 - column))
        fail := (match result with | .pass _ => false | .fail _ => true) || s.queue.covered row
        statusSelected := false } })) ∧
  (∀ (block : Nat) (entries : List Entry),
    let erases (e : Entry) : Prop := e.kind = .erase ∧ e.row / 128 = block
    (afterErase block entries = none ↔ ∀ e ∈ entries, ¬ erases e) ∧
    ∀ young, afterErase block entries = some young ↔
      ∃ older e, entries = older ++ e :: young ∧ erases e ∧ ∀ x ∈ young, ¬ erases x) ∧
  (∀ (base : Page) (row : Nat) (entries : List Entry) (c : Nat),
    Page.Canonical base → (∀ e ∈ entries, Page.Canonical e.image) →
    readCell (composeOver base row entries) c =
      ((entries.filter (fun e => decide (e.kind = .program) && decide (e.row = row))).map
        (fun e => readCell e.image c)).foldl (· &&& ·) (readCell base c)) ∧
  (∀ (page : Page) (c n : Nat), pageBytes page c n = (List.range n).map (fun i => readCell page (c + i))) ∧
  (∀ (q : HoldQueue) (row : Nat) (base : Page) (c : Nat),
    Page.Canonical base → (∀ e ∈ q.entries, Page.Canonical e.image) →
    ∃ (from_ : Page) (young : List Entry), (∃ older, q.entries = older ++ young) ∧
      ((∃ older e, q.entries = older ++ e :: young ∧ e.kind = .erase ∧ e.row / 128 = row / 128 ∧ from_ = []) ∨
        (young = q.entries ∧ from_ = base)) ∧
      (∀ e ∈ young, ¬ (e.kind = .erase ∧ e.row / 128 = row / 128)) ∧
      readCell (q.composed row base) c =
        ((young.filter (fun e => decide (e.kind = .program) && decide (e.row = row))).map
          (fun e => readCell e.image c)).foldl (· &&& ·) (readCell from_ c))

/-- A commit that passes (R50): the entry leaves, the rows it made good leave the failed-row table, an attached entry
returns the front to IDLE with FAIL clear, a detached one only ends the front's wait; in FLUSHING and LINE_RESET it is counted
(R138, R182); the Drop Monitor is told, and the image of a profile-flagged PROGRAM is applied (R53, R181). Where both could
produce a record either comes first, an open choice (log entry 8). -/
def Obligations.PassedCommitLeavesTheQueue : Prop :=
  ∀ (s : State) (d : Die) (older younger : List Entry) (e : Entry) (data : Page),
    s.queue.entries = older ++ e :: younger → rowOnDie d e.row = true → (∀ x ∈ older, rowOnDie d x.row = false) →
    ∃ failedRows front,
      (e.kind = .program → failedRows = s.queue.failedRows.filter (fun r =>
        !(decide (r.block = e.row / 128) && (decide (r.page = none) || decide (r.page = some (e.row % 128)))))) ∧
      (e.kind = .erase → failedRows = s.queue.failedRows.filter (fun r => decide (r.block ≠ e.row / 128))) ∧
      (e.disposition = .posted → front = s.front) ∧
      (e.disposition = .awaiting .attached → front = { s.front with state := .idle, fail := false }) ∧
      (e.disposition = .awaiting .detached →
        front = if s.front.state = .awaiting then { s.front with state := .idle } else s.front) ∧
      let left : State := { s with
        queue := { s.queue with entries := older ++ younger, failedRows := failedRows }
        front := front, control := s.countedLeaving true }
      (e.profileFlag = false ∨ e.kind = .erase →
        s.handResult d .commit (.pass data) data = left.dropDeparted e.dropTag .committed) ∧
      (e.profileFlag = true → e.kind = .program → e.dropTag = none →
        s.handResult d .commit (.pass data) data = left.serviceApply e.image (e.row % 128)) ∧
      (e.profileFlag = true → e.kind = .program → e.dropTag ≠ none →
        let chosen : State := { left with free := s.free + 1 }
        s.handResult d .commit (.pass data) data =
          (chosen.dropDeparted e.dropTag .committed).serviceApply e.image (e.row % 128) ∨
        s.handResult d .commit (.pass data) data =
          (chosen.serviceApply e.image (e.row % 128)).dropDeparted e.dropTag .committed)

/-- A commit that fails (R51, R52): the entry leaves; an attached entry sets FAIL and returns the front to IDLE, with no
row and no record; any other adds its row to the failed-row table and produces a COMMIT_FAIL record, a detached one ending
the front's wait; in FLUSHING and LINE_RESET it is counted (R138, R182); the Drop Monitor is told last. -/
def Obligations.FailedCommitIsReported : Prop :=
  ∀ (s : State) (d : Die) (older younger : List Entry) (e : Entry) (cause : FailCause) (data : Page),
    s.queue.entries = older ++ e :: younger → rowOnDie d e.row = true → (∀ x ∈ older, rowOnDie d x.row = false) →
    (e.disposition = .awaiting .attached →
      s.handResult d .commit (.fail cause) data = State.dropDeparted { s with
        queue := { s.queue with entries := older ++ younger }
        front := { s.front with state := .idle, fail := true }
        control := s.countedLeaving false } e.dropTag .failed) ∧
    (e.disposition ≠ .awaiting .attached →
      ∃ page table overflow,
        page = (if e.kind = .erase then none else some (e.row % 128)) ∧
        addFailed s.queue.failedRows { block := e.row / 128, page := page } = (table, overflow) ∧
        s.handResult d .commit (.fail cause) data = State.dropDeparted (State.record { s with
          queue := { s.queue with entries := older ++ younger, failedRows := table }
          front := if e.disposition = .awaiting .detached ∧ s.front.state = .awaiting
            then { s.front with state := .idle } else s.front
          control := { s.countedLeaving false with rowOverflow := s.control.rowOverflow || overflow } }
          (.commitFail { kind := e.kind, block := e.row / 128, page := page
                         cause := match cause with | .media => .media | .timeout => .timeout | .offline => .offline
                         awaiting := decide (e.disposition ≠ .posted), origin := e.origin, dropTag := e.dropTag
                         acceptTick := e.acceptTick, overflow := overflow })) e.dropTag .failed)

/-- The consequences of an event are taken to the end (R67, R71, R75, R77, R137, R183): a chain of single consequences leads
from the event's own effect to a state in which nothing more may be granted, passed or failed at once and no sequence is due;
then the transfers that have become ready join the lines in ascending die number (R65). A choice among several for which the
manual gives no order is open, and counted (log entry 8). The consequences never touch the Timebase, the line levels or the
commands that wait; in SERVICE, with no service request waiting, they leave the gauge and, but for the row-list overflow flag,
the Service Controller. -/
def Obligations.EveryConsequenceIsTaken : Prop :=
  (∀ s : State, ∃ (n : Nat) (chain : Nat → State) (joined : List Die),
    chain 0 = s ∧ (∀ i, i < n → (chain i).Consequence (chain (i + 1))) ∧ (chain n).AtRest ∧
    joined.Pairwise (· < ·) ∧
    (∀ d, d ∈ joined ↔ d ∉ (chain n).media.lines ∧ ∃ op, (chain n).die d = .busy op ∧
      ∀ start timeoutMs elapsed, op.phase ≠ .busy start timeoutMs elapsed) ∧
    s.settled = { chain n with
      media := { (chain n).media with lines := (chain n).media.lines ++ joined } }) ∧
  (∀ s : State, s.settled.tick = s.tick ∧ s.settled.pins = s.pins ∧ s.settled.pending = s.pending) ∧
  ∀ s : State, s.control.state = .service → s.control.sequence = .none → s.media.services = [] →
    s.settled.gauge = s.gauge ∧ s.settled.media.services = [] ∧
    ∃ overflow, s.settled.control = { s.control with rowOverflow := overflow }

/-- What a grant, a failure at once and a probe passed at once do. A commit (R49, R67, R69, R135): the entry is COMMITTING,
the patience counter 0, and in FLUSHING a unit of the budget is taken. A front read (R67, R68): the request is taken, and the
patience counter rises where a commit waits too. A service operation (R67, R140, R146): profile pages lie on block 0 and note
pages on block 1; an OPENED note carries the counters at its grant and takes the next note page (the FLUSH note is in
FlushAndLineResetEnd). A probe at an OFFLINE die starts, and at any other passes at once (R77). At an OFFLINE die a front
read, a commit and any other service operation fail with cause OFFLINE, each counted (R75, R39). -/
def Obligations.RequestsAreGrantedOrFailAtOnce : Prop :=
  (∀ (s : State) (d : Die) (older younger : List Entry) (e : Entry),
    s.queue.entries = older ++ e :: younger → rowOnDie d e.row = true → (∀ x ∈ older, rowOnDie d x.row = false) →
    s.perform (.grant d (.commit e)) = { s with
      queue := { s.queue with entries := older ++ { e with progress := .committing } :: younger }
      control := { s.control with
        budget := if s.control.state = .flushing then s.control.budget - 1 else s.control.budget }
      media := { s.media with
        dies := s.media.dies.set d
          { state := .busy { kind := if e.kind = .erase then .erase else .program, row := some e.row, image := e.image
                             requester := .commit, phase := .command }
            patience := 0 } } }) ∧
  (∀ (s : State) (d : Die) (row : Nat) (contested : Bool),
    let patience := (s.media.dies.get d).patience
    s.perform (.grant d (.front row contested)) = { s with
      media := { s.media with
        frontRead := none
        dies := s.media.dies.set d
          { state := .busy { kind := .read, row := some row, image := [], requester := .front false, phase := .command }
            patience := if contested then patience + 1 else patience } } }) ∧
  ∀ (s : State) (d : Die) (r : ServiceRequest),
    let taken := s.media.services.erase r
    let begun (kind : MediaKind) (row : Option Nat) (image : Page) : Scheduler := { s.media with
      services := taken
      dies := s.media.dies.set d
        { state := .busy { kind := kind, row := row, image := image, requester := .service r, phase := .command }
          patience := (s.media.dies.get d).patience } }
    let failures := min 65535 (s.media.mediaFailures + 1)
    (∀ page, r.op = .profileRead page →
      s.perform (.grant d (.service r)) = { s with media := begun .read (some page) [] }) ∧
    (∀ page, r.op = .noteRead page →
      s.perform (.grant d (.service r)) = { s with media := begun .read (some (128 + page)) [] }) ∧
    (r.op = .noteErase → s.perform (.grant d (.service r)) = { s with media := begun .erase (some 128) [] }) ∧
    (∀ page, r.op = .openedNote → s.control.nextNotePage = some page →
      s.perform (.grant d (.service r)) = { s with
        control := { s.control with nextNotePage := some (page + 1) }
        media := begun .program (some (128 + page)) (openedNote s.tick s.drop.counter s.report.next) }) ∧
    (r.op = .probe d →
      s.perform (.startProbe r) = { s with media := begun .reset none [] } ∧
      s.perform (.passProbe r) =
        State.handResult { s with media := { s.media with services := taken } } d (.service r) (.pass []) []) ∧
    (r.op.isProbe = false → s.perform (.failService r) =
      State.handResult { s with media := { s.media with services := taken, mediaFailures := failures } } d (.service r)
        (.fail .offline) []) ∧
    (∀ row, s.perform (.failFront row) =
      State.handResult { s with media := { s.media with frontRead := none, mediaFailures := failures } } d (.front false)
        (.fail .offline) []) ∧
    s.perform (.failCommit d) =
      State.handResult { s with media := { s.media with mediaFailures := failures } } d .commit (.fail .offline) []

/-! ### The motion lines -/

/-- FFALL_RISE (R80, R84, R86, R90, R99): in CALM a CATCH drop opens, or the youngest of four reopens as MULTIPLE; in a
merge gap and in SETTLING a new onset begins. FFALL_FALL (R85, R87, R90, R93): it ends a suspension with a SENSOR record; in
FALLING it ends the onset and begins the merge gap, or with a merge of 0 goes on to SETTLING; in SETTLING it ends the onset.
A rise of a line already high and a fall of one already low are no edges (the model's choice, log entry 3). -/
def Obligations.FreeFallEdgesAct : Prop :=
  ((∀ s : State, s.pins.ffall = true → exec .ffallRise s = .next s) ∧
  ∀ s : State, s.pins.ffall = false →
    let params : DropParams :=
      { settleMs := s.control.settings.settleMs, ceilingMs := s.control.settings.ceilingMs
        mergeMs := s.control.settings.mergeMs, latency := s.control.settings.latency }
    let departed : DropMonitor := { s.drop with
      state := .falling, ffallSince := some s.tick, latched := some params, openOnset := some s.tick
      ceilingTimer := .running 0 (params.ceilingMs * 10), total := s.drop.total + 1 }
    let pins := { s.pins with ffall := true }
    (s.drop.state = .calm → s.drop.pending.length < 4 → exec .ffallRise s = .next { s with
      pins := pins
      drop := { departed with
        counter := s.drop.counter + 1
        pending := s.drop.pending ++
          [{ Drop.fresh .catch_ (s.drop.counter + 1) s.tick s.control.state.opensDipped with
             onsets := [{ start := s.tick, stop := none }], onsetCount := 1, falls := 1 }] } }) ∧
    (∀ older x, s.drop.state = .calm → s.drop.pending = older ++ [x] → older.length = 3 →
      exec .ffallRise s = .next { s with
        pins := pins
        drop := { departed with
          pending := older ++ [{ x with
            kind := .multiple, condition := .opened, powerDip := x.powerDip || s.control.state.opensDipped
            onsets := listOnset x.onsets s.tick, onsetCount := min 65535 (x.onsetCount + 1)
            falls := min 65535 (x.falls + 1) }] } }) ∧
    (∀ older x, s.drop.state = .falling → s.drop.pending = older ++ [x] →
      exec .ffallRise s = .next { s with
        pins := pins
        drop := { s.drop with
          ffallSince := some s.tick, mergeTimer := .stopped, openOnset := some s.tick
          pending := older ++ [{ x with
            onsets := listOnset x.onsets s.tick, onsetCount := min 65535 (x.onsetCount + 1) }] } }) ∧
    (∀ older x, s.drop.state = .settling → s.drop.pending = older ++ [x] →
      exec .ffallRise s = .next { s with
        pins := pins
        drop := { s.drop with
          state := .falling, ffallSince := some s.tick, settleTimer := .stopped, openOnset := some s.tick
          pending := older ++ [{ x with
            onsets := listOnset x.onsets s.tick, onsetCount := min 65535 (x.onsetCount + 1)
            falls := min 65535 (x.falls + 1) }] } })) ∧
  ((∀ s : State, s.pins.ffall = false → exec .ffallFall s = .next s) ∧
  ∀ s : State, s.pins.ffall = true →
    let pins := { s.pins with ffall := false }
    (∀ since, s.drop.suspended = some since → exec .ffallFall s = .next { s with
      pins := pins
      drop := { s.drop with suspended := none }
      report := s.report.append s.control.settings.mask s.tick (.sensor (.resumed since)) }) ∧
    (s.drop.suspended = none → s.drop.state = .calm → exec .ffallFall s = .next { s with pins := pins }) ∧
    (s.drop.suspended = none → s.drop.state = .settling → s.drop.openOnset = none →
      exec .ffallFall s = .next { s with pins := pins }) ∧
    ∀ start older x y, s.drop.suspended = none → s.drop.openOnset = some start → s.drop.pending = older ++ [x] →
      x.OnsetEnds start s.tick y →
      (s.drop.state = .settling → exec .ffallFall s = .next { s with
        pins := pins, drop := { s.drop with openOnset := none, pending := older ++ [y] } }) ∧
      ∀ p, s.drop.state = .falling → s.drop.latched = some p →
        (p.mergeMs ≠ 0 → exec .ffallFall s = .next { s with
          pins := pins
          drop := { s.drop with openOnset := none, pending := older ++ [y]
                                mergeTimer := .running 0 (p.mergeMs * 10) } }) ∧
        (p.mergeMs = 0 → exec .ffallFall s = .next { s with
          pins := pins
          drop := { s.drop with openOnset := none, pending := older ++ [y], state := .settling, mergeTimer := .stopped
                                settleTimer := .running 0 (p.settleMs * 10) } }))

/-- FIMP_RISE (R84, R88, R89, R95, R96, R99): in CALM with K on a KNOCK drop opens or the youngest of four reopens, with K
off nothing; in FALLING the first impact of a drop not reopened takes the span and the height; in SETTLING it counts.
FIMP_FALL (R94): an open measurement ends, its width clamped to 65535, and the longer width is kept, for a CATCH drop too (the
model's choice, log entry 31). A rise of a line already high and a fall of one already low are no edges (the model's choice,
log entry 3). -/
def Obligations.ImpactEdgesAct : Prop :=
  ((∀ s : State, s.pins.fimp = true → exec .fimpRise s = .next s) ∧
  ∀ s : State, s.pins.fimp = false →
    let params : DropParams :=
      { settleMs := s.control.settings.settleMs, ceilingMs := s.control.settings.ceilingMs
        mergeMs := s.control.settings.mergeMs, latency := s.control.settings.latency }
    let departed : DropMonitor := { s.drop with
      state := .settling, latched := some params, impactStart := some s.tick, total := s.drop.total + 1
      ceilingTimer := .running 0 (params.ceilingMs * 10), settleTimer := .running 0 (params.settleMs * 10) }
    let pins := { s.pins with fimp := true }
    (s.drop.state = .calm → s.control.settings.knockHold = false → exec .fimpRise s = .next { s with pins := pins }) ∧
    (s.drop.state = .calm → s.control.settings.knockHold = true → s.drop.pending.length < 4 →
      exec .fimpRise s = .next { s with
        pins := pins
        drop := { departed with
          counter := s.drop.counter + 1
          pending := s.drop.pending ++
            [{ Drop.fresh .knock (s.drop.counter + 1) s.tick s.control.state.opensDipped with impacts := 1 }] } }) ∧
    ∀ older x, s.drop.pending = older ++ [x] →
      (s.drop.state = .calm → s.control.settings.knockHold = true → older.length = 3 →
        exec .fimpRise s = .next { s with
          pins := pins
          drop := { departed with
            pending := older ++ [{ x with
              kind := .multiple, condition := .opened, powerDip := x.powerDip || s.control.state.opensDipped
              impacts := min 65535 (x.impacts + 1) }] } }) ∧
      ∀ p, s.drop.latched = some p →
        let struck (y : Drop) : DropMonitor := { s.drop with
          settleTimer := .running 0 (p.settleMs * 10), impactStart := some s.tick, pending := older ++ [y] }
        (s.drop.state = .settling → exec .fimpRise s = .next { s with
          pins := pins, drop := struck { x with impacts := min 65535 (x.impacts + 1) } }) ∧
        (s.drop.state = .falling → (x.impacts ≠ 0 ∨ x.onsets = [] ∨ x.kind = .multiple) →
          exec .fimpRise s = .next { s with
            pins := pins
            drop := { struck { x with impacts := min 65535 (x.impacts + 1) } with
              state := .settling, mergeTimer := .stopped } }) ∧
        ∀ first more n, s.drop.state = .falling → x.impacts = 0 → x.onsets = first :: more → x.kind ≠ .multiple →
          n = min 65535 ((s.tick - first.start).toNat + p.latency) →
          exec .fimpRise s = .next { s with
            pins := pins
            drop := { struck { x with
                impacts := 1, kind := if x.kind = .catch_ then .fall else x.kind
                measure := some { span := n, height := min 65535 (n * n * 49033 / 1000000000) } } with
              state := .settling, mergeTimer := .stopped } }) ∧
  ((∀ s : State, s.pins.fimp = false → exec .fimpFall s = .next s) ∧
  (∀ s : State, s.pins.fimp = true → s.drop.impactStart = none →
    exec .fimpFall s = .next { s with pins := { s.pins with fimp := false } }) ∧
  ∀ (s : State) (start : Tick) (older : List Drop) (x : Drop), s.pins.fimp = true → s.drop.impactStart = some start →
    s.drop.pending = older ++ [x] →
    exec .fimpFall s = .next { s with
      pins := { s.pins with fimp := false }
      drop := { s.drop with
        impactStart := none
        pending := older ++ [{ x with
          longestWidth := some (max (min 65535 (s.tick - start).toNat) (x.longestWidth.getD 0)) }] } })

/-- MERGE_TIMER_EXPIRY (R87), once the interval has passed: SETTLING, with the settle timer started; before it, and for a
stopped timer, nothing (the model's choice, log entry 2). SETTLE_TIMER_EXPIRY (R91): the open drop closes, the state is CALM
with every timer stopped, ready drops are reported (R100), and drain resumes. CEILING_TIMER_EXPIRY (R92, R102): the drop
closes with the CEILING mark; with FFALL high and free-fall not yet suspended it is suspended, with a SENSOR record. That the
DROP record precedes the SENSOR record is the model's reading, and that both come before the COMMIT_FAIL records of entries
that wait for an OFFLINE die its choice (log entry 22), as are that a CATCH drop whose impact is measured at the close keeps
its width (log entry 31), and that a drop which opens in SPENT after step 3 of a recovery is reported at its close there, ahead
of the START record, where R146 says later in SERVICE (log entry 28). -/
def Obligations.DropTimersExpire : Prop :=
  ((∀ (s : State) (elapsed interval : Nat) (p : DropParams),
    s.drop.mergeTimer = .running elapsed interval → interval ≤ elapsed → s.drop.latched = some p →
    exec .mergeTimerExpiry s = .next { s with
      drop := { s.drop with
        state := .settling, mergeTimer := .stopped, settleTimer := .running 0 (p.settleMs * 10) } }) ∧
  ∀ s : State, (s.drop.mergeTimer = .stopped ∨
      ∃ elapsed interval, s.drop.mergeTimer = .running elapsed interval ∧ elapsed < interval) →
    exec .mergeTimerExpiry s = .next s) ∧
  (∀ s : State, (s.drop.settleTimer = .stopped ∨
      ∃ elapsed interval, s.drop.settleTimer = .running elapsed interval ∧ elapsed < interval) →
    exec .settleTimerExpiry s = .next s) ∧
  (∀ s : State, (s.drop.ceilingTimer = .stopped ∨
      ∃ elapsed interval, s.drop.ceilingTimer = .running elapsed interval ∧ elapsed < interval) →
    exec .ceilingTimerExpiry s = .next s) ∧
  ∀ (s : State) (elapsed interval : Nat) (older : List Drop) (x y : Drop),
    interval ≤ elapsed → s.drop.pending = older ++ [x] →
    let closed : State := State.reportDrops { s with
      drop := { s.drop with
        state := .calm, mergeTimer := .stopped, settleTimer := .stopped, ceilingTimer := .stopped
        openOnset := none, impactStart := none, pending := older ++ [y] } }
    (s.drop.settleTimer = .running elapsed interval →
      x.ClosesTo s.drop.openOnset s.drop.impactStart s.tick false y →
      exec .settleTimerExpiry s = .next closed.settled) ∧
    ∀ p : DropParams, s.drop.ceilingTimer = .running elapsed interval → s.drop.latched = some p →
      x.ClosesTo s.drop.openOnset s.drop.impactStart s.tick true y →
      (s.pins.ffall = true → s.drop.suspended = none → exec .ceilingTimerExpiry s = .next (State.settled { closed with
        drop := { closed.drop with suspended := some s.tick }
        report := closed.report.append s.control.settings.mask s.tick
          (.sensor (.suspended s.drop.counter s.drop.ffallSince p.ceilingMs)) })) ∧
      ((s.pins.ffall = false ∨ s.drop.suspended ≠ none) →
        exec .ceilingTimerExpiry s = .next closed.settled)

/-- A departure told to the Drop Monitor (R97): the tagged drop has one entry fewer outstanding, and a failed or lost entry
adds 1 to its failed count, at most 65,535; the oldest drops are then tested, and an entry without a tag tells nothing. R100:
while the counter is loaded, the oldest drops that are closed with nothing outstanding leave the table in order, each with its
DROP record, whose fields are the drop's (R101), and the first that is not so keeps the rest; before the load none leaves
(R103). -/
def Obligations.ReadyDropsAreReportedInOrder : Prop :=
  (∀ (s : State) (way : Departure),
    s.dropDeparted none way = s ∧
    ∀ tag : Tick, s.dropDeparted (some tag) way = State.reportDrops { s with
      drop := { s.drop with pending := s.drop.pending.map (fun x =>
        if x.number = tag then
          { x with
            outstanding := x.outstanding - 1
            failed := if way = .failed ∨ way = .lost then min 65535 (x.failed + 1) else x.failed }
        else x) } }) ∧
  (∀ s : State, s.drop.loaded = false → s.reportDrops = s) ∧
  ∀ s : State, s.drop.loaded = true →
    ∃ gone rest, s.drop.pending = gone ++ rest ∧ (∀ x ∈ gone, x.isReady) ∧
      (∀ x more, rest = x :: more → ¬ x.isReady) ∧
      s.reportDrops = { s with
        drop := { s.drop with pending := rest }
        report := gone.foldl (fun r x =>
          match x.condition with
          | .opened => r
          | .closed tick => r.append s.control.settings.mask s.tick (.drop
            { number := x.number, kind := x.kind, openTick := x.openTick, closeTick := tick, measure := x.measure
              onsetCount := x.onsetCount, airborne := x.airborne, falls := x.falls, impacts := x.impacts
              longestWidth := x.longestWidth, postedHeld := x.postedHeld, awaitingHeld := x.awaitingHeld
              failed := x.failed, ceilingMark := x.ceilingMark, powerDip := x.powerDip })) s.report }

/-! ### The Charge Gauge -/

/-- QPULSE_RISE: while the start-up tallies run a tally, after them a quantum of the weight in force (R108, R109, R111); that
they end with the start-up hold too, where no apply has been made, is the model's reading (log entry 21). TFREQ_RISE: one more
in the gate, at most 1,048,575 (R112). MINUTE_BOUNDARY at the end of the sixtieth gate: the net becomes the newest of at most 8
buckets (R118); that it is a command of its own before its GATE_END is the model's choice (log entry 20). -/
def Obligations.GaugeInputsAreCounted : Prop :=
  (∀ s : State,
    (s.gauge.tallying = true →
      exec (.qpulseRise true) s = .next { s with
        gauge := { s.gauge with rawDischarge := min 4294967295 (s.gauge.rawDischarge + 1) } } ∧
      exec (.qpulseRise false) s = .next { s with
        gauge := { s.gauge with rawCharge := min 4294967295 (s.gauge.rawCharge + 1) } }) ∧
    (s.gauge.tallying = false → s.GaugeLaw →
      exec (.qpulseRise true) s = .next { s with
        gauge := { s.gauge with
          remaining := if s.gauge.state = .valid then s.gauge.remaining - s.gauge.weight else s.gauge.remaining
          net := min 2147483647 (s.gauge.net + s.gauge.weight)
          drawn := if s.gauge.anchor then min 4294967295 (s.gauge.drawn + s.gauge.weight) else s.gauge.drawn } } ∧
      exec (.qpulseRise false) s = .next { s with
        gauge := { s.gauge with
          remaining := if s.gauge.state = .valid then min s.gauge.learned (s.gauge.remaining + s.gauge.weight)
            else s.gauge.remaining
          net := max (-2147483648) (s.gauge.net - s.gauge.weight)
          anchor := false } })) ∧
  (∀ s : State, exec .tfreqRise s = .next { s with
    gauge := { s.gauge with gateCount := min 1048575 (s.gauge.gateCount + 1) } }) ∧
  (∀ s : State, 10000 ≤ s.gauge.gateTicks → s.gauge.gates = 59 → s.gauge.boundaryTaken = false →
    exec .minuteBoundary s = .next { s with
      gauge := { s.gauge with
        buckets := (if s.gauge.buckets.length < 8 then s.gauge.buckets else s.gauge.buckets.drop 1) ++ [s.gauge.net]
        net := 0, boundaryTaken := true } })

/-- GATE_END once the gate's 10,000 ticks have passed (R112 to R117, R119, R123, R125): temperature, derived values, level and
the period's record, each from the settings in force; nothing but the gauge and the ring changes, and the start-up hold and
its tallies stay. The sixtieth gate's minute boundary is taken first where MINUTE_BOUNDARY has not taken it (the model's
choice, log entry 20), so the minutes come from the new buckets (R118); before the 10,000 ticks nothing happens (log entry 2).
The record holds what the period leaves, charges in whole mAh (R126). That PERIODIC compares the count of periods as the
period finds it is the model's reading (log entry 16), and that ticks past the gate's 10,000 stay with the next is its choice
(log entry 2). -/
def Obligations.GateEndComputesThePeriod : Prop :=
  let record (g : Gauge) (reason : BatteryReason) : BatteryRecord :=
    { reason := reason, state := g.state, level := g.derived.level, soc := g.derived.soc
      remainingMah := g.derived.remaining.map (fun x => x / 16000), learnedMah := g.learned / 16000
      temperature := g.temperature, stale := g.stale, outOfRange := g.outOfRange, minutes := g.derived.minutes
      factor := g.derived.factor }
  (∀ s : State, s.gauge.gateTicks < 10000 → exec .gateEnd s = .next s) ∧
  ∀ s : State, 10000 ≤ s.gauge.gateTicks →
    let due := s.gauge.gates = 59 ∧ s.gauge.boundaryTaken = false
    ∃ (g : Gauge) (report : ReportMemory), exec .gateEnd s = .next { s with gauge := g, report := report } ∧
      (s.gauge.gateCount = 0 → g.temperature = s.gauge.temperature ∧ g.stale = true ∧
        g.outOfRange = s.gauge.outOfRange ∧ g.firstReading = s.gauge.firstReading) ∧
      (s.gauge.gateCount ≠ 0 →
        let exact := ((s.gauge.gateCount : Int) - s.control.settings.zeroCount).fdiv s.control.settings.perDegree
        g.temperature = max (-40) (min 85 exact) ∧ g.stale = false ∧ g.firstReading = true ∧
        (g.outOfRange = true ↔ exact < -40 ∨ 85 < exact)) ∧
      g.gateCount = 0 ∧ g.gates = (s.gauge.gates + 1) % 60 ∧ g.gateTicks = s.gauge.gateTicks - 10000 ∧
      g.weight = s.control.settings.weight ∧
      (¬ due → g.net = s.gauge.net ∧ g.buckets = s.gauge.buckets) ∧
      (due → g.net = 0 ∧ g.buckets =
        (if s.gauge.buckets.length < 8 then s.gauge.buckets else s.gauge.buckets.drop 1) ++ [s.gauge.net]) ∧
      g.boundaryTaken = false ∧ g.seated = s.gauge.seated ∧ g.holding = s.gauge.holding ∧ g.held = s.gauge.held ∧
      g.tallying = s.gauge.tallying ∧ g.rawDischarge = s.gauge.rawDischarge ∧ g.rawCharge = s.gauge.rawCharge ∧
      g.learned = s.gauge.learned ∧ g.remaining = s.gauge.remaining ∧ g.state = s.gauge.state ∧
      g.anchor = s.gauge.anchor ∧ g.drawn = s.gauge.drawn ∧ g.nominalCu = s.gauge.nominalCu ∧
      g.derived.factor = derateFactor s.control.settings.derate g.temperature ∧
      g.derived.usable = s.gauge.learned * g.derived.factor / 256 ∧
      (s.gauge.state = .unknown → g.derived.remaining = none ∧ g.derived.soc = none ∧ g.derived.minutes = none ∧
        g.derived.level = .unknown) ∧
      (s.gauge.state = .valid → ∃ ru soc : Nat,
        (ru : Int) = max 0 ((s.gauge.remaining : Int) - ((s.gauge.learned - g.derived.usable : Nat) : Int)) ∧
        soc = 100 * ru / g.derived.usable ∧ g.derived.remaining = some ru ∧ g.derived.soc = some soc ∧
        g.derived.level = nextLevel s.gauge.derived.level soc s.control.settings.low s.control.settings.critical ∧
        (g.buckets.length < 8 ∨ g.buckets.sum ≤ 0 → g.derived.minutes = none) ∧
        (8 ≤ g.buckets.length → 0 < g.buckets.sum → ∃ average : Nat,
          (average : Int) = max 1 (g.buckets.sum.fdiv 8) ∧ g.derived.minutes = some (min 65535 (ru / average)))) ∧
      (s.gauge.changePending = true ∨ g.derived.level ≠ s.gauge.derived.level ∨
          s.control.settings.interval ≤ s.gauge.periods →
        g.periods = 0 ∧ g.changePending = false ∧
        report = s.report.append s.control.settings.mask s.tick (.battery (record g
          (if s.gauge.changePending then .state
           else if g.derived.level ≠ s.gauge.derived.level then .level else .periodic)))) ∧
      (s.gauge.changePending = false → g.derived.level = s.gauge.derived.level →
        s.gauge.periods < s.control.settings.interval →
        g.periods = min 3600 (s.gauge.periods + 1) ∧ g.changePending = false ∧ report = s.report)

/-- R117: a period in UNKNOWN state leaves the level UNKNOWN; in VALID state it is set from the level the last period left:
from UNKNOWN by the thresholds, a falling level at the threshold, a rising one two points above it. -/
def Obligations.LevelFollowsTheThresholds : Prop :=
  (∀ (g : Gauge) (table : DerateTable) (low critical : Nat),
    (g.state = .unknown → (g.derive table low critical).level = .unknown) ∧
    (g.state = .valid → ∃ soc, (g.derive table low critical).soc = some soc ∧
      (g.derive table low critical).level = nextLevel g.derived.level soc low critical)) ∧
  ∀ (previous : Level) (soc low critical : Nat), critical < low →
    let level := nextLevel previous soc low critical
    level ≠ .unknown ∧
    (previous = .unknown → (level = .normal ↔ low ≤ soc) ∧ (level = .critical ↔ soc < critical)) ∧
    (previous = .normal → (level = .normal ↔ low ≤ soc) ∧ (level = .critical ↔ soc < critical)) ∧
    (previous = .low → (level = .normal ↔ low + 2 ≤ soc) ∧ (level = .critical ↔ soc < critical)) ∧
    (previous = .critical → (level = .normal ↔ low + 2 ≤ soc) ∧
      (level = .low ↔ critical + 2 ≤ soc ∧ soc < low + 2))

/-- R115: the derate factor at and outside the end points, its interpolation between two points, and its range. -/
def Obligations.DerateFactorInterpolates : Prop :=
  ∀ (table : DerateTable) (t : Int), table.Lawful →
    (t ≤ table.p1.temperature → derateFactor table t = table.p1.factor) ∧
    (table.p4.temperature ≤ t → derateFactor table t = table.p4.factor) ∧
    (∀ a b, ((a, b) = (table.p1, table.p2) ∨ (a, b) = (table.p2, table.p3) ∨ (a, b) = (table.p3, table.p4)) →
      a.temperature ≤ t → t < b.temperature →
      (derateFactor table t : Int) =
        a.factor + (((b.factor : Int) - a.factor) * (t - a.temperature)).tdiv (b.temperature - a.temperature) ∧
      min a.factor b.factor ≤ derateFactor table t ∧ derateFactor table t ≤ max a.factor b.factor) ∧
    1 ≤ derateFactor table t ∧ derateFactor table t ≤ 256

/-- CHGDONE, PKEMPTY and PKPRES edges during the start-up hold are held in arrival order (R111). After it, CHGDONE and PKEMPTY
set the charge to full or empty, an empty report with a valid anchor first teaching the capacity with a LEARNED record, and
with no pack seated both are ignored (R106, R120, R121); a PKPRES edge leaves the gauge UNKNOWN with the anchor void and no
charge, a removal clearing the buckets, and produces its record (R122). That a rise of PKPRES high and a fall of PKPRES low
are no edges is the model's choice (log entry 3), and that records made at edges show the values the last period left (R126) is
its reading (log entry 18). -/
def Obligations.BatteryEdgesAct : Prop :=
  let record (g : Gauge) (reason : BatteryReason) : BatteryRecord :=
    { reason := reason, state := g.state, level := g.derived.level, soc := g.derived.soc
      remainingMah := g.derived.remaining.map (fun x => x / 16000), learnedMah := g.learned / 16000
      temperature := g.temperature, stale := g.stale, outOfRange := g.outOfRange, minutes := g.derived.minutes
      factor := g.derived.factor }
  (∀ s : State, s.gauge.holding = true →
    let held (e : HeldEdge) : Gauge := { s.gauge with held := s.gauge.held ++ [e] }
    exec .chgdoneRise s = .next { s with gauge := held .chgdone } ∧
    exec .pkemptyRise s = .next { s with gauge := held .pkempty } ∧
    (s.pins.pkpres = true → exec .pkpresFall s =
      .next { s with pins := { s.pins with pkpres := false }, gauge := held .pkpresFall }) ∧
    (s.pins.pkpres = false → exec .pkpresRise s =
      .next { s with pins := { s.pins with pkpres := true }, gauge := held .pkpresRise })) ∧
  (∀ s : State, s.gauge.holding = false →
    let changed := s.gauge.changePending || decide (s.gauge.state = .unknown)
    (s.gauge.seated = false → exec .chgdoneRise s = .next s ∧ exec .pkemptyRise s = .next s) ∧
    (s.gauge.seated = true →
      exec .chgdoneRise s = .next { s with
        gauge := { s.gauge with
          remaining := s.gauge.learned, drawn := 0, anchor := true, state := .valid, changePending := changed } } ∧
      (s.gauge.anchor = false → exec .pkemptyRise s = .next { s with
        gauge := { s.gauge with remaining := 0, anchor := false, state := .valid, changePending := changed } }) ∧
      (s.gauge.anchor = true →
        let learned := max (s.gauge.nominalCu / 2) (min (s.gauge.nominalCu * 5 / 4) s.gauge.drawn)
        exec .pkemptyRise s = .next { s with
          gauge := { s.gauge with
            learned := learned, remaining := 0, anchor := false, state := .valid, changePending := changed }
          report := s.report.append s.control.settings.mask s.tick
            (.battery (record { s.gauge with learned := learned } .learned)) }))) ∧
  (∀ s : State, s.gauge.holding = false →
    let changed := s.gauge.changePending || decide (s.gauge.state = .valid)
    let out : Gauge := { s.gauge with
      state := .unknown, anchor := false, remaining := 0, buckets := [], net := 0, seated := false
      changePending := changed }
    let seated : Gauge := { s.gauge with
      state := .unknown, anchor := false, remaining := 0, seated := true, changePending := changed }
    (s.pins.pkpres = true →
      exec .pkpresFall s = .next { s with
        pins := { s.pins with pkpres := false }, gauge := out
        report := s.report.append s.control.settings.mask s.tick (.battery (record out .packOut)) } ∧
      exec .pkpresRise s = .next s) ∧
    (s.pins.pkpres = false →
      exec .pkpresRise s = .next { s with
        pins := { s.pins with pkpres := true }, gauge := seated
        report := s.report.append s.control.settings.mask s.tick (.battery (record seated .packIn)) } ∧
      exec .pkpresFall s = .next s))

/-! ### Supply, line reset and time -/

/-- START_UP_SETTLE_END after 200 ticks (R169, R170, R133): with the supply good the probe of die 0 is requested; with it
low the part goes to SPENT with the start-up hold ended and the note block unusable. That the settle end is a command of its
own (log entry 2), and that the hold's end ends the tallying where no apply has been made (log entry 21), are the model's. -/
def Obligations.SettleEndBeginsStartUp : Prop :=
  ∀ (s : State) (elapsed : Nat), s.control.sequence = .settling elapsed → 200 ≤ elapsed →
    (s.pins.supgood = true → exec .startUpSettleEnd s = .next (State.settled { s with
      control := { s.control with sequence := .probeDieZero }
      media := { s.media with services := s.media.services ++ [{ op := .probe 0, standing := .awaited }] } })) ∧
    (s.pins.supgood = false → s.media.services = [] → (∀ d, (s.die d).serviceRequest = none) →
      s.control.nextNotePage = none →
      let held : State := State.endGaugeHold { s with
        control := { s.control with noteUsable := false, dipStart := s.tick } }
      exec .startUpSettleEnd s = .next (State.settled { held with
        control := { s.control with
          state := .spent, sequence := .none, noteUsable := false, dipStart := s.tick } }))

/-- The results of the service operations that start-up and the line reset await (R170, R172, R176, R178, R180, R182, R183),
wherever the sequence stands: the probes, the scan of the profile block with its three endings, the scan of the note block,
and the erase and program of the OPENED note. A line reset that finds die 0 OFFLINE reads nothing (the model's reading, log
entry 15, stated in FlushAndLineResetEnd); an erase leaves the block usable with page 0 next. The result of a request of a
stopped start-up or line reset is disregarded (R132, R133); that of a stopped recovery's note write moves the note block alone
(R143, R148), where the model's reading is that the former leaves the note block too (log entry 14); where the latter fails
under a recovery begun again, that one's own note write is withdrawn and it goes on (log entry 25). -/
def Obligations.StartUpAndScansFollowResults : Prop :=
  ∀ (s : State) (d : Die) (op : ServiceOp) (data : Page),
    let done (result : MediaResult) : State :=
      s.handResult d (.service { op := op, standing := .awaited }) result data
    let late (result : MediaResult) : State :=
      s.handResult d (.service { op := op, standing := .noteOnly }) result data
    let noteScan (t : State) : State :=
      if t.die 0 = .idle then t.asking (.noteScan 0 none) (.noteRead 0)
      else State.settleNote { t with control := { t.control with noteUsable := false } } none
    let probeRest (t : State) (dies : List Die) : State :=
      match dies with
      | [] => noteScan t
      | x :: rest => t.asking (.probeAdded rest) (.probe x)
    let ended (purpose : ScanFor) (result : ScanResult) : State :=
      match purpose with
      | .startUp =>
        let t := s.applyAtStartUp result
        probeRest t (allDies.filter (fun x => decide (1 ≤ x.val) && decide (x.val < t.control.installed)))
      | .lineReset => (s.applyAtLineReset result).lineResetEnded
    let outcome (best : Option (Nat × Page)) (failed : Nat) : ScanResult :=
      match best with
      | none => .nothing failed
      | some x => .found x.1 x.2 failed
    let scanOn (purpose : ScanFor) (page : Nat) (best : Option (Nat × Page)) (failed : Nat) : State :=
      if 127 ≤ page then ended purpose (outcome best failed)
      else s.asking (.profileScan purpose (page + 1) best failed) (.profileRead (page + 1))
    let nextPage (n : Nat) : State := { s with control := { s.control with nextNotePage := some n } }
    let unusable : State := { s with control := { s.control with noteUsable := false } }
    (∀ result, s.control.sequence = .probeDieZero →
      (s.die 0 = .idle → done result = s.asking (.profileScan .startUp 0 none 0) (.profileRead 0)) ∧
      (s.die 0 ≠ .idle → done result = ended .startUp .unread)) ∧
    (∀ purpose page best failed, s.control.sequence = .profileScan purpose page best failed →
      (∀ image, image = [] → done (.pass image) = ended purpose (outcome best failed)) ∧
      (∀ image, image ≠ [] → profilePageOk image = true →
        done (.pass image) = scanOn purpose page (some (page, image)) 0) ∧
      (∀ image, image ≠ [] → profilePageOk image = false →
        done (.pass image) = scanOn purpose page best (failed + 1)) ∧
      done (.fail .media) = scanOn purpose page best (failed + 1) ∧
      done (.fail .timeout) = ended purpose .unread ∧ done (.fail .offline) = ended purpose .unread) ∧
    (∀ result rest, s.control.sequence = .probeAdded rest → done result = probeRest s rest) ∧
    (∀ page best, s.control.sequence = .noteScan page best →
      (∀ image, image = [] → done (.pass image) = (nextPage page).settleNote best) ∧
      (∀ image, image ≠ [] →
        let latest := if notePageOk image then some (page, image) else best
        done (.pass image) = if 127 ≤ page then (nextPage 128).settleNote latest
          else s.asking (.noteScan (page + 1) latest) (.noteRead (page + 1))) ∧
      ∀ cause, done (.fail cause) = unusable.settleNote best) ∧
    (∀ opening, s.control.sequence = .openedErase opening → op = .noteErase → s.control.noteUsable = true →
      (∀ image, done (.pass image) = (nextPage 0).asking (.openedProgram opening) .openedNote) ∧
      ∀ cause, done (.fail cause) = unusable.opened opening) ∧
    (∀ opening, s.control.sequence = .openedProgram opening → op = .openedNote →
      (∀ image, done (.pass image) = s.opened opening) ∧ ∀ cause, done (.fail cause) = unusable.opened opening) ∧
    (∀ result, s.handResult d (.service { op := op, standing := .disregarded }) result data = s) ∧
    ((∀ image, s.control.noteUsable = true → op = .noteErase → late (.pass image) = nextPage 0) ∧
      (∀ image, s.control.noteUsable = true → op = .openedNote → late (.pass image) = s) ∧
      (∀ cause, s.control.sequence = .none → late (.fail cause) = unusable) ∧
      ∀ cause opening, (s.control.sequence = .openedErase opening ∨ s.control.sequence = .openedProgram opening) →
        late (.fail cause) = State.opened { unusable with
          media := { s.media with services := s.media.services.filter (fun r => !r.op.isNoteWrite) } } opening) ∧
    ∀ result rest, s.control.sequence = .lineProbe rest →
      done result = match rest with
        | [] => { s with control := { s.control with sequence := .lineWait } }
        | x :: more => s.asking (.lineProbe more) (.probe x)

/-- The note outcome (R177, R103, R153, R127, R111, R58): a FLUSH note in a usable block starts clean, with its counters, its
gauge values, its rows and its mark; any other latest note loads its counters alone; none loads base 0. The start-up hold of
the gauge then ends: tallies are converted and the held edges act in order. Then the OPENED note. A START record's flag of a die
says that it is within the installed count and not OFFLINE (R180). That D stays as it stood where no pack is seated is the
model's reading (log entry 30), as is that the end of the hold converts and ends the tallying where no apply has been made (log
entry 21). -/
def Obligations.NoteOutcomeIsSettled : Prop :=
  (∀ (s : State) (d : Die),
    s.answering.get d = true ↔ d.val < s.control.installed ∧ s.die d ≠ .offline) ∧
  (∀ (s t : State) (best : Option (Nat × Page)),
    (best = none → (s.countersLoaded 0 0).endGaugeHold.Opens
      (.startUp { cause := .powerOnNoNote, notePage := none, counts := none, rows := none }) t →
      s.settleNote best = t) ∧
    ∀ page image, best = some (page, image) →
      let counted := s.countersLoaded (noteDropCounter image) (noteSequence image)
      (noteIsFlush image = false ∨ s.control.noteUsable = false →
        counted.endGaugeHold.Opens
          (.startUp { cause := .powerOnUnclean, notePage := some page, counts := none, rows := none }) t →
        s.settleNote best = t) ∧
      (noteIsFlush image = true → s.control.noteUsable = true →
        let held : State := State.endGaugeHold { counted with gauge := s.gauge.restore (noteGauge image) }
        let table := (noteRows image).foldl
          (fun a r => ((addFailed a.1 r).1, a.2 || (addFailed a.1 r).2)) (s.queue.failedRows, s.control.rowOverflow)
        State.Opens { held with
            queue := { held.queue with failedRows := table.1 }
            control := { held.control with rowOverflow := table.2 || noteOverflow image } }
          (.startUp { cause := .powerOnClean, notePage := some page, counts := some (noteCounts image)
                      rows := some { count := table.1.length, overflow := noteOverflow image } }) t →
        s.settleNote best = t)) ∧
  (∀ (g : Gauge) (n : GaugeNote),
    let learned := max (g.nominalCu / 2) (min (g.nominalCu * 5 / 4) n.learned)
    (g.seated = false → g.restore n = { g with learned := learned, state := .unknown, anchor := false, remaining := 0 }) ∧
    (g.seated = true → n.valid = true → g.restore n = { g with
      learned := learned, state := .valid, anchor := n.anchor, drawn := n.drawn, remaining := min learned n.remaining
      changePending := true }) ∧
    (g.seated = true → n.valid = false → g.restore n = { g with
      learned := learned, state := .unknown, anchor := false, drawn := n.drawn, remaining := 0 })) ∧
  (∀ s : State, (s.gauge.holding = false → s.endGaugeHold = s) ∧
    (s.gauge.holding = true →
      let range (n : Int) : Int := max (-2147483648) (min 2147483647 n)
      s.endGaugeHold = s.gauge.held.foldl State.batteryEdge { s with
        gauge := { s.gauge with
          net := if s.gauge.tallying then
              range (range (s.gauge.net + s.gauge.weight * s.gauge.rawDischarge) - s.gauge.weight * s.gauge.rawCharge)
            else s.gauge.net
          anchor := if s.gauge.tallying then s.gauge.anchor && decide (s.gauge.rawCharge = 0) else s.gauge.anchor
          rawDischarge := if s.gauge.tallying then 0 else s.gauge.rawDischarge
          rawCharge := if s.gauge.tallying then 0 else s.gauge.rawCharge
          tallying := false, holding := false, held := [] } })) ∧
  ∀ s : State, s.gauge.holding = false →
    exec .chgdoneRise s = .next (s.batteryEdge .chgdone) ∧ exec .pkemptyRise s = .next (s.batteryEdge .pkempty) ∧
    (s.pins.pkpres = true → exec .pkpresFall s =
      .next (State.batteryEdge { s with pins := { s.pins with pkpres := false } } .pkpresFall)) ∧
    (s.pins.pkpres = false → exec .pkpresRise s =
      .next (State.batteryEdge { s with pins := { s.pins with pkpres := true } } .pkpresRise))

/-- The end of the flush and of the line reset's wait (R55, R71, R137, R138, R141 to R144, R172, R183): the drain ends with the
queue empty, or with at most 1 unit and no commit in progress; what is left is lost in order, each with its row, its COMMIT_FAIL
record and its drop told; then the FLUSH note is requested, or skipped. At its grant it takes a unit, or with B at 0 is
skipped; its result ends the flush. A line reset whose queue is empty scans the profile block, or with die 0 OFFLINE ends
unread (the model's reading, log entry 15). -/
def Obligations.FlushAndLineResetEnd : Prop :=
  (∀ s : State, s.control.sequence = .drain →
    let ended := s.queue.entries = [] ∨ s.control.budget ≤ 1 ∧ ∀ e ∈ s.queue.entries, e.progress = .waiting
    (¬ ended → s.sequenceAction = none) ∧
    (ended → s.control.noteUsable = true → 1 ≤ s.control.budget →
      let lost := s.loseEntries
      s.sequenceAction = some (lost.asking .flushNote (.flushNote (flushNote s.tick lost.drop.counter lost.report.next
        { remaining := s.gauge.remaining, learned := s.gauge.learned, valid := decide (s.gauge.state = .valid)
          anchor := s.gauge.anchor, drawn := s.gauge.drawn }
        lost.queue.failedRows lost.control.rowOverflow lost.control.counts)))) ∧
    (ended → (s.control.noteUsable = false ∨ s.control.budget = 0) →
      s.sequenceAction = some (s.loseEntries.flushEnded .skipped))) ∧
  (∀ s : State, s.loseEntries = s.queue.entries.foldl
    (fun a e =>
      let page := if e.kind = .erase then none else some (e.row % 128)
      let added := addFailed a.queue.failedRows { block := e.row / 128, page := page }
      State.dropDeparted (State.record { a with
          queue := { a.queue with failedRows := added.1 }
          control := { a.control with rowOverflow := a.control.rowOverflow || added.2 } }
        (.commitFail { kind := e.kind, block := e.row / 128, page := page, cause := .lost
                       awaiting := decide (e.disposition ≠ .posted), origin := e.origin, dropTag := e.dropTag
                       acceptTick := e.acceptTick, overflow := added.2 })) e.dropTag .lost)
    { s with
      queue := { s.queue with entries := [] }
      control := { s.control with
        counts := { s.control.counts with lost := s.control.counts.lost + s.queue.entries.length } } }) ∧
  (∀ (s : State) (r : ServiceRequest) (image : Page) (page : Nat), r.op = .flushNote image →
    let taken : State := { s with media := { s.media with services := s.media.services.erase r } }
    (s.control.budget = 0 → s.perform (.grant 0 (.service r)) = taken.flushEnded .skipped) ∧
    (1 ≤ s.control.budget → s.control.state = .flushing → s.control.nextNotePage = some page →
      s.perform (.grant 0 (.service r)) = { taken with
        control := { s.control with budget := s.control.budget - 1, nextNotePage := some (page + 1) }
        media := { taken.media with
          dies := s.media.dies.set 0
            { state := .busy { kind := .program, row := some (128 + page), image := image, requester := .service r
                               phase := .command }
              patience := (s.media.dies.get 0).patience } } })) ∧
  (∀ (s : State) (d : Die) (image data : Page), s.control.sequence = .flushNote →
    let done (result : MediaResult) : State :=
      s.handResult d (.service { op := .flushNote image, standing := .awaited }) result data
    (∀ bytes, done (.pass bytes) = s.flushEnded .written) ∧
    ∀ cause, done (.fail cause) =
      State.flushEnded { s with control := { s.control with noteUsable := false } } .failed) ∧
  ∀ s : State, s.control.sequence = .lineWait →
    (s.queue.entries ≠ [] → s.sequenceAction = none) ∧
    (s.queue.entries = [] → s.die 0 ≠ .offline →
      s.sequenceAction = some (s.asking (.profileScan .lineReset 0 none 0) (.profileRead 0))) ∧
    (s.queue.entries = [] → s.die 0 = .offline →
      s.sequenceAction = some (s.applyAtLineReset .unread).lineResetEnded)

/-- Testing and applying a profile (R173 to R175, R179, R181, R183, R123, R163): the page check; every scalar clamped to its
range, marked where that changes a field; the table test; then the live fields with the windows settled, the start-up fields in
force at start-up and compared at any other apply, the gauge's new capacity, ATTN, and the PROFILE record. A rejected image
changes nothing, but at start-up the defaults follow. That a TABLE rejection keeps the CLAMPED mark is the model's reading
(log entry 19), as is the clamp of Rc at start-up (log entry 17). -/
def Obligations.ProfilesAreTestedAndApplied : Prop :=
  (∀ page : Page,
    let raw := decodeProfile page
    let v := raw.live
    let low := max 1 (min 50 v.low)
    let point (x : DeratePoint) : DeratePoint := ⟨max (-40) (min 85 x.temperature), max 1 (min 256 x.factor)⟩
    let table : DerateTable := ⟨point v.derate.p1, point v.derate.p2, point v.derate.p3, point v.derate.p4⟩
    let p : ProfileImage := { raw with
      installed := max 1 (min 4 raw.installed), rres := max 2 (min 64 raw.rres)
      live := { v with
        patience := max 1 (min 8 v.patience), dieTimeoutMs := max 1 (min 255 v.dieTimeoutMs)
        mergeMs := min 100 v.mergeMs, settleMs := max 10 (min 2000 v.settleMs)
        ceilingMs := max 500 (min 10000 v.ceilingMs), latency := min 2000 v.latency
        weight := max 1 (min 65535 v.weight), nominal := max 500 (min 20000 v.nominal), low := low
        critical := min (low - 1) v.critical, zeroCount := min 65535 v.zeroCount
        perDegree := max 1 (min 255 v.perDegree), derate := table, interval := max 1 (min 3600 v.interval) } }
    let rising := table.p1.temperature < table.p2.temperature ∧ table.p2.temperature < table.p3.temperature ∧
      table.p3.temperature < table.p4.temperature
    (profilePageOk page = false → testProfile page = .rejected .check false) ∧
    (profilePageOk page = true → rising → testProfile page = .accepted p (decide (p ≠ raw))) ∧
    (profilePageOk page = true → ¬ rising → testProfile page = .rejected .table (decide (p ≠ raw)))) ∧
  ∀ s : State,
    let temperature (p : ProfileImage) : Int :=
      if s.gauge.firstReading then s.gauge.temperature else p.live.derate.p1.temperature
    let later (p : ProfileImage) (page : Option Nat) : State :=
      let put := s.withProfile p s.control.settings.windows s.control.installed page s.report.masked
      let n := p.live.nominal * 16000
      let learned := max (n / 2) (min (n * 5 / 4) s.gauge.learned)
      { put with
        control := { put.control with
          startUpPending := decide (p.installed ≠ s.control.installed ∨ p.rres ≠ s.control.rres) }
        gauge := if n = s.gauge.nominalCu then { s.gauge with temperature := temperature p }
          else { s.gauge with
            nominalCu := n, learned := learned, remaining := min learned s.gauge.remaining
            temperature := temperature p } }
    let atStart (p : ProfileImage) (page : Option Nat) : State :=
      let put := s.withProfile p defaultWindows p.installed page false
      let n := p.live.nominal * 16000
      let w := p.live.weight
      let range (x : Int) : Int := max (-2147483648) (min 2147483647 x)
      { put with
        control := { put.control with installed := p.installed, rres := p.rres, startUpPending := false }
        gauge := { s.gauge with
          nominalCu := n, learned := n, remaining := min n s.gauge.remaining, weight := w, temperature := temperature p
          net := if s.gauge.tallying then
              range (range (s.gauge.net + w * s.gauge.rawDischarge) - w * s.gauge.rawCharge)
            else s.gauge.net
          anchor := if s.gauge.tallying then s.gauge.anchor && decide (s.gauge.rawCharge = 0) else s.gauge.anchor
          rawDischarge := if s.gauge.tallying then 0 else s.gauge.rawDischarge
          rawCharge := if s.gauge.tallying then 0 else s.gauge.rawCharge
          tallying := false } }
    let rejectedLater (p : ProfileImage) : List Nat :=
      (settleWindows s.control.installed s.control.settings.windows p.live.windows []).2
    let rejectedAtStart (p : ProfileImage) : List Nat := (settleWindows p.installed defaultWindows p.live.windows []).2
    let defaults : ProfileImage := { generation := 0, installed := 1, rres := 40, live := defaultSettings }
    (∀ image page p clamped, testProfile image = .accepted p clamped →
      s.serviceApply image page =
        (later p (some page)).profileApplied .service page p.generation (rejectedLater p) clamped none ∧
      ∀ failed,
        s.applyAtStartUp (.found page image failed) = (atStart p (some page)).profileApplied .startUp page p.generation
          (rejectedAtStart p) clamped (some failed) ∧
        s.applyAtLineReset (.found page image failed) = (later p (some page)).profileApplied .lineReset page p.generation
          (rejectedLater p) clamped (some failed)) ∧
    (∀ image page reason clamped, testProfile image = .rejected reason clamped →
      s.serviceApply image page = s.profileRejected .service page reason clamped none ∧
      ∀ failed,
        s.applyAtStartUp (.found page image failed) =
          (atStart defaults none).profileRejected .startUp page reason clamped (some failed) ∧
        s.applyAtLineReset (.found page image failed) =
          s.profileRejected .lineReset page reason clamped (some failed)) ∧
    (∀ failed,
      s.applyAtStartUp (.nothing failed) = (atStart defaults none).profileAbsent .startUp .defaults (some failed) ∧
      s.applyAtLineReset (.nothing failed) = (later defaults none).profileAbsent .lineReset .defaults (some failed)) ∧
    s.applyAtStartUp .unread = (atStart defaults none).profileAbsent .startUp .notRead none ∧
    s.applyAtLineReset .unread = s.profileAbsent .lineReset .notRead none

/-- SUPGOOD_FALL (R131 to R134, R148, R37, R55, R79, R104): from SERVICE and LINE_RESET the part enters FLUSHING with its
budget; in FLUSHING nothing happens but the level; in STARTING start-up stops and the part is SPENT, in SPENT a dip recovery
stops, and in both the note writes that still wait are withdrawn. From STARTING the note block is usable exactly where it was
and the scan had found the next note page; the gauge's hold ends. The budget's count of programs and erases in progress, and
how requests no longer awaited are marked, in words. A fall of a line already low is no edge (the model's choice, log entry 3).
That the results of a stopped start-up's note writes are not acted on (standing disregarded) while a stopped recovery's move
the note block (standing noteOnly), and that the hold's end ends the tallying where no apply was made, are the model's readings
(log entries 14, 21). -/
def Obligations.SupplyFallActs : Prop :=
  ((∀ s : State, s.pins.supgood = false → exec .supgoodFall s = .next s) ∧
  ∀ s : State, s.pins.supgood = true →
    let pins := { s.pins with supgood := false }
    (s.control.state = .flushing → exec .supgoodFall s = .next { s with pins := pins }) ∧
    ((s.control.state = .service ∨ s.control.state = .lineReset) →
      exec .supgoodFall s = .next (State.settled { s with
        pins := pins
        control := { s.control with
          state := .flushing, sequence := .drain, counts := ⟨0, 0, 0⟩, flushNote := none, dipStart := s.tick
          budget := if s.pins.rsvgood then s.control.rres - s.media.writesInProgress else 0 }
        front := { s.front with state := .idle, statusSelected := false }
        queue := { s.queueReleased with entries := s.queue.entries.map (fun e =>
          match e.disposition with
          | .posted => e
          | .awaiting _ => { e with disposition := .awaiting .detached }) }
        media := s.mediaReleased.restand .disregarded
        report := s.reportReleased
        drop := { s.drop with pending := s.drop.pending.map (fun x => { x with powerDip := true }) } }))) ∧
  (∀ s : State, s.pins.supgood = true → s.SequenceLaw →
    ((s.control.state = .starting ∨ s.control.state = .spent) →
      ∃ t, exec .supgoodFall s = .next t ∧ t.pins = { s.pins with supgood := false } ∧ t.tick = s.tick ∧
        t.pending = s.pending ∧ t.control.state = .spent ∧ t.control.sequence = .none ∧
        (∀ r ∈ t.media.services, r.op.isNoteWrite = false)) ∧
    (s.control.state = .starting →
      ∃ t, exec .supgoodFall s = .next t ∧ t.control.dipStart = s.tick ∧ t.gauge.holding = false ∧
        (t.control.noteUsable = true → s.control.noteUsable = true ∧ s.control.nextNotePage ≠ none)) ∧
    let pins := { s.pins with supgood := false }
    let kept : Scheduler := { s.media with services := s.media.services.filter (fun r => !r.op.isNoteWrite) }
    let usable := s.control.noteUsable && s.control.nextNotePage.isSome
    let held : State := State.endGaugeHold { s with
      pins := pins
      media := kept.restand .disregarded
      control := { s.control with noteUsable := usable, dipStart := s.tick } }
    (s.control.state = .starting →
      exec .supgoodFall s = .next (State.settled { held with
        control := { s.control with
          state := .spent, sequence := .none, noteUsable := usable, dipStart := s.tick } })) ∧
    (s.control.state = .spent → exec .supgoodFall s = .next (State.settled { s with
      pins := pins
      media := kept.restand .noteOnly
      control := { s.control with sequence := .none } })) ∧
    (s.QueueLaw → (∀ r ∈ s.media.services, r.standing = .noteOnly → r.op.isNoteWrite = true) →
      (s.control.state = .starting → ∃ t, exec .supgoodFall s = .next t ∧
        t.control = { s.control with
          state := .spent, sequence := .none, noteUsable := usable, dipStart := s.tick } ∧
        t.queue = s.queue ∧ t.drop = s.drop ∧ t.gauge = held.gauge ∧ t.report = held.report) ∧
      (s.control.state = .spent → ∃ t, exec .supgoodFall s = .next t ∧
        t.control = { s.control with sequence := .none } ∧
        t.queue = s.queue ∧ t.drop = s.drop ∧ t.gauge = s.gauge ∧ t.report = s.report))) ∧
  (∀ op : ServiceOp, op.isNoteWrite = true ↔ op = .noteErase ∨ op = .openedNote ∨ ∃ image, op = .flushNote image) ∧
  (∀ m : Scheduler, m.writesInProgress = ([0, 1, 2, 3] : List Die).countP (fun d =>
    match (m.dies.get d).state with
    | .idle => false
    | .offline => false
    | .busy op => decide (op.kind = .program) || decide (op.kind = .erase))) ∧
  ∀ (m : Scheduler) (standing : Standing),
    let marked (r : ServiceRequest) : ServiceRequest :=
      if r.standing = .awaited then { r with standing := standing } else r
    ∃ dies, m.restand standing = { m with services := m.services.map marked, dies := dies } ∧
      ∀ d : Die, (dies.get d).patience = (m.dies.get d).patience ∧
        (∀ op r, (m.dies.get d).state = .busy op → op.requester = .service r →
          (dies.get d).state = .busy { op with requester := .service (marked r) }) ∧
        ((∀ op r, (m.dies.get d).state = .busy op → op.requester ≠ .service r) →
          (dies.get d).state = (m.dies.get d).state)

/-- SUPGOOD_RISE (R131, R144): in SPENT a dip recovery begins; in every other state only the level changes; a rise of a line
already high is no edge (the model's choice, log entry 3). The recovery's steps at that event (R145, R149, R104): a counter
not yet loaded is loaded with base 0; where no apply has been made the defaults come into force with no PROFILE record;
every pending drop gains POWER_DIP, the open one closes, and ready drops are reported; then the OPENED note, or START and
SERVICE. Which drops are marked before the load, and when the defaults are due, are the model's reading (log entry 27); so
is that N, Lc and Rc stay where the defaults come into force, against R145's 'as a start-up apply would' (log entry 17).
That a CATCH drop whose impact is measured at its close keeps its width is the model's choice (log entry 31). -/
def Obligations.SupplyRiseBeginsTheRecovery : Prop :=
  (∀ s : State, s.pins.supgood = true → exec .supgoodRise s = .next s) ∧
  (∀ s : State, s.pins.supgood = false →
    let high : State := { s with pins := { s.pins with supgood := true } }
    (s.control.state ≠ .spent → exec .supgoodRise s = .next high) ∧
    (s.control.state = .spent → exec .supgoodRise s = .next high.beginRecovery.settled)) ∧
  ∀ (s loaded applied closed t : State) (dipped : List Drop),
    (s.drop.loaded = true ∧ loaded = s ∨
      s.drop.loaded = false ∧ loaded = State.reportDrops { s with
        drop := { s.drop with loaded := true }, report := { s.report with loaded := true } }) →
    (s.report.masked = false ∧ applied = loaded ∨
      s.report.masked = true ∧ s.gauge.nominalCu = 108800000 ∧ s.gauge.tallying = false ∧ applied = { loaded with
        control := { loaded.control with
          installed := 1, rres := 40, startUpPending := false, profilePage := none, settings := defaultSettings }
        gauge := { loaded.gauge with
          weight := 1600
          temperature := if loaded.gauge.firstReading then loaded.gauge.temperature else -20 }
        report := { loaded.report with
          masked := false, attn := loaded.report.ring.any (fun x => (0x00B9#16).getLsbD x.payload.code) } }) →
    dipped = applied.drop.pending.map (fun x => { x with powerDip := true }) →
    (applied.drop.state = .calm ∧ closed = State.reportDrops { applied with
        drop := { applied.drop with pending := dipped } } ∨
      ∃ older x y, applied.drop.state ≠ .calm ∧ dipped = older ++ [x] ∧
        x.ClosesTo applied.drop.openOnset applied.drop.impactStart s.tick false y ∧
        closed = State.reportDrops { applied with
          drop := { applied.drop with
            state := .calm, mergeTimer := .stopped, settleTimer := .stopped, ceilingTimer := .stopped
            openOnset := none, impactStart := none, pending := older ++ [y] } }) →
    closed.Opens .dipRecovery t →
    s.beginRecovery = t

/-- RSVGOOD edges (R130, R136): outside FLUSHING the posting limit alone moves; in FLUSHING a fall sets the budget to 0 and a
rise leaves it. The limit by the line, the level and R_res, with the values the rule works out for 40, 2 and 64 (R44). -/
def Obligations.PostingLimitFollowsLineAndLevel : Prop :=
  ((∀ s : State, s.pins.rsvgood = true →
    (s.control.state ≠ .flushing →
      ∃ t, exec .rsvgoodFall s = .next t ∧ t = { s with pins := { s.pins with rsvgood := false } } ∧ t.limit = 0) ∧
    (s.control.state = .flushing → exec .rsvgoodFall s = .next (State.settled { s with
      pins := { s.pins with rsvgood := false }, control := { s.control with budget := 0 } }))) ∧
  ∀ s : State, s.pins.rsvgood = false →
    ∃ t, exec .rsvgoodRise s = .next t ∧ t = { s with pins := { s.pins with rsvgood := true } } ∧
      (s.gauge.derived.level = .critical → t.limit = 0) ∧
      (s.gauge.derived.level = .low ∨ s.gauge.derived.level = .unknown → t.limit = (s.control.rres - 1) / 2) ∧
      (s.gauge.derived.level = .normal → t.limit = s.control.rres - 1)) ∧
  ((∀ (rsvgood : Bool) (level : Level) (rres : Nat), 2 ≤ rres →
    (rsvgood = false ∨ level = .critical → postingLimit rsvgood level rres = 0) ∧
    (rsvgood = true → level = .low ∨ level = .unknown → postingLimit rsvgood level rres = (rres - 1) / 2) ∧
    (rsvgood = true → level = .normal → postingLimit rsvgood level rres = rres - 1) ∧
    postingLimit rsvgood level rres + 1 ≤ rres) ∧
  postingLimit true .normal 40 = 39 ∧ postingLimit true .low 40 = 19 ∧ postingLimit true .normal 2 = 1 ∧
  postingLimit true .low 2 = 0 ∧ postingLimit true .normal 64 = 63 ∧ postingLimit true .low 64 = 31)

/-- LRST in SERVICE (R182, R36, R69, R54): the state is LINE_RESET, the front is cleared, an attached entry still WAITING is
withdrawn and any other detached, the patience counters are 0, and a probe is requested for the first OFFLINE die; in every
other state nothing (R168). That the status output stays as it is selected is the model's reading (log entry 11), as is that the
probes are requested one after another, the first alone at the LRST (log entry 27). -/
def Obligations.LineResetBegins : Prop :=
  (∀ s : State, s.control.state ≠ .service → exec .lrst s = .next s) ∧
  ∀ s : State, s.control.state = .service →
    let probes := allDies.filter (fun d => decide (d.val < s.control.installed) && decide (s.die d = .offline))
    let begun (withdrawn : Bool) (entries : List Entry) : State := { s with
      control := { s.control with
        state := .lineReset, lrstTick := s.tick
        lineReset := { committed := 0, failed := 0, withdrawn := withdrawn }
        sequence := match probes with | [] => .lineWait | _ :: rest => .lineProbe rest }
      front := { s.front with
        state := .idle, fail := false, refused := false, posted := false, counters := ⟨0, 0, 0, 0, 0, 0⟩ }
      queue := { s.queueReleased with entries := entries }
      media := { s.mediaReleased with
        dies := s.mediaReleased.dies.map (fun r => { r with patience := 0 })
        services := s.media.services ++
          (match probes with | [] => [] | d :: _ => [{ op := .probe d, standing := .awaited }]) }
      report := s.reportReleased }
    ((∀ e ∈ s.queue.entries, e.disposition = .posted) →
      exec .lrst s = .next (begun false s.queue.entries).settled) ∧
    ∀ older e, s.queue.entries = older ++ [e] → (∀ x ∈ older, x.disposition = .posted) →
      (e.disposition = .awaiting .attached → e.progress = .waiting →
        exec .lrst s = .next ((begun true older).dropDeparted e.dropTag .withdrawn).settled) ∧
      (∀ a, e.disposition = .awaiting a → (a = .detached ∨ e.progress = .committing) →
        exec .lrst s = .next (begun false (older ++ [{ e with disposition := .awaiting .detached }])).settled)

/-- TICK (R1, 00_scope.md 5.2): the counter increments, wrapping; every running timer, the present gate, the settle
interval and every busy interval advance by one tick, and nothing else changes. That expiries are commands of their own is the
model's choice (log entry 2). -/
def Obligations.TickAdvancesTime : Prop :=
  ∀ s : State, ∃ t, exec .tick s = .next t ∧
    t.tick.toNat = (s.tick.toNat + 1) % 4294967296 ∧
    t.gauge = { s.gauge with gateTicks := s.gauge.gateTicks + 1 } ∧
    (∃ m x c, t.drop = { s.drop with mergeTimer := m, settleTimer := x, ceilingTimer := c } ∧
      ∀ before after, (before, after) ∈
          [(s.drop.mergeTimer, m), (s.drop.settleTimer, x), (s.drop.ceilingTimer, c)] →
        (before = .stopped → after = .stopped) ∧
        ∀ elapsed interval, before = .running elapsed interval → after = .running (elapsed + 1) interval) ∧
    (∃ q, t.control = { s.control with sequence := q } ∧
      (∀ elapsed, s.control.sequence = .settling elapsed → q = .settling (elapsed + 1)) ∧
      ((∀ elapsed, s.control.sequence ≠ .settling elapsed) → q = s.control.sequence)) ∧
    (∃ dies, t.media = { s.media with dies := dies } ∧
      ∀ d, (dies.get d).patience = (s.media.dies.get d).patience ∧
        (∀ op start timeoutMs elapsed, s.die d = .busy op → op.phase = .busy start timeoutMs elapsed →
          t.die d = .busy { op with phase := .busy start timeoutMs (elapsed + 1) }) ∧
        ((∀ op start timeoutMs elapsed, s.die d = .busy op → op.phase ≠ .busy start timeoutMs elapsed) →
          t.die d = s.die d)) ∧
    t.pins = s.pins ∧ t.front = s.front ∧ t.queue = s.queue ∧ t.report = s.report ∧ t.free = s.free ∧
    t.pending = s.pending

/-! ### Functions of the rules -/

/-- Screening and translation (R20, R25 step 2): the reserved bit set, or THROUGH with a READ, refuses with cause QUALIFIER;
any other address is translated (R2, R3, R8 to R11, R14 to R17), never with that cause. ABSOLUTE without service access is
refused; then a column above 4223, and an ERASE with a column other than 0, in every window and with ABSOLUTE (R8); then
windows 0 to 13 with their checks in order, the fixed windows 14 and 15, and ABSOLUTE rows. -/
def Obligations.RowsTranslate : Prop :=
  (∀ (v : Settings) (installed : Nat) (kind : OpKind) (a : Address),
    (a.reserved = true ∨ a.through = true ∧ kind = .read → screen v installed kind a = .refused .qualifier) ∧
    (¬ (a.reserved = true ∨ a.through = true ∧ kind = .read) →
      screen v installed kind a = translate v installed kind a ∧ screen v installed kind a ≠ .refused .qualifier)) ∧
  (∀ (v : Settings) (installed : Nat) (kind : OpKind) (a : Address),
    (a.absolute = false ∨ v.serviceAccess = true) → (4223 < a.column ∨ kind = .erase ∧ a.column ≠ 0) →
    translate v installed kind a = .refused .address) ∧
  ((∀ (v : Settings) (installed : Nat) (kind : OpKind) (a : Address) (w : Window),
    a.absolute = false → v.windows[a.row.toNat / 1048576]? = some w → a.row.toNat / 1048576 < 14 →
    let block := a.row.toNat % 1048576 / 128
    let row := (w.base + block) * 128 + a.row.toNat % 128
    let bad := 4223 < a.column ∨ (kind = .erase ∧ a.column ≠ 0) ∨ w.enabled = false ∨ w.extent ≤ block
    (bad → translate v installed kind a = .refused .address) ∧
    (¬ bad → kind ≠ .read → w.closed = true → translate v installed kind a = .refused .closed) ∧
    (¬ bad → (kind = .read ∨ w.closed = false) → translate v installed kind a = .passed
      { kind := kind
        path := match kind with
          | .read => .snoop row
          | .program => .queue row
          | .erase => .queue ((w.base + block) * 128)
        column := a.column, origin := .window (a.row.toNat / 1048576), holdEligible := w.holdEligible
        profileFlag := false, through := a.through })) ∧
  (∀ (v : Settings) (installed : Nat) (kind : OpKind) (a : Address),
    a.absolute = false → a.column ≤ 4223 → (kind = .erase → a.column = 0) →
    let offset := a.row.toNat % 1048576
    (a.row.toNat / 1048576 = 14 → (128 ≤ offset ∨ kind = .erase ∨ kind = .program ∧ offset ≠ 1) →
      translate v installed kind a = .refused .address) ∧
    (a.row.toNat / 1048576 = 14 → offset < 128 → (kind = .read ∨ kind = .program ∧ offset = 1) →
      translate v installed kind a = .passed
        { kind := kind, path := .report offset, column := a.column, origin := .window 14, holdEligible := false
          profileFlag := false, through := a.through }) ∧
    (a.row.toNat / 1048576 = 15 → 128 ≤ offset → translate v installed kind a = .refused .address) ∧
    (a.row.toNat / 1048576 = 15 → offset < 128 → translate v installed kind a = .passed
      { kind := kind
        path := match kind with | .read => .snoop offset | .program => .profile offset | .erase => .profile 0
        column := a.column, origin := .window 15, holdEligible := false
        profileFlag := decide (kind ≠ .read), through := a.through }))) ∧
  ∀ (v : Settings) (installed : Nat) (kind : OpKind) (a : Address), a.absolute = true →
    (v.serviceAccess = false → translate v installed kind a = .refused .service) ∧
    (v.serviceAccess = true → a.column ≤ 4223 → (kind = .erase → a.column = 0) →
      let row := a.row.toNat
      let around (w : Window) : Prop :=
        w ∈ v.windows ∧ w.enabled = true ∧ w.base ≤ row / 128 ∧ row / 128 < w.base + w.extent
      let bad := 4194304 ≤ row ∨ installed * 8192 ≤ row / 128 ∨ row / 128 = 0 ∨ row / 128 = 1
      (bad → translate v installed kind a = .refused .address) ∧
      (¬ bad → kind ≠ .read → (∃ w, around w ∧ w.closed = true) → translate v installed kind a = .refused .closed) ∧
      (¬ bad → (kind = .read ∨ ∀ w, around w → w.closed = false) → ∃ op,
        translate v installed kind a = .passed op ∧ op.kind = kind ∧ op.column = a.column ∧ op.origin = .absolute ∧
        op.path = (match kind with | .read => .snoop row | .program => .queue row | .erase => .queue (row / 128 * 128)) ∧
        op.profileFlag = false ∧ op.through = a.through ∧
        (op.holdEligible = true ↔ ∃ w, around w ∧ w.holdEligible = true)))

/-- R5: the windows are settled in ascending number: a candidate that R5 accepts against the final entries below it is in
force, any other leaves the entry before it and its number is among those rejected. -/
def Obligations.WindowsSettleInOrder : Prop :=
  ∀ (installed : Nat) (before candidates : List Window), before.length = candidates.length →
    (∀ w ∈ before, w.enabled = true → 1 ≤ w.extent) →
    let settled := settleWindows installed before candidates []
    settled.1.length = before.length ∧
    ∀ i b c, before[i]? = some b → candidates[i]? = some c →
      (c.Acceptable installed (settled.1.take i) → settled.1[i]? = some c ∧ i ∉ settled.2) ∧
      (¬ c.Acceptable installed (settled.1.take i) → settled.1[i]? = some b ∧ i ∈ settled.2)

/-- R57: a row added to a lawful table is covered afterwards, nothing else is lost but page records of a whole block added,
or the oldest record of a full table, which alone gives the overflow mark. What the table covers (R57, R58): a record with a
page covers that one row, a record without a page every row of its block. -/
def Obligations.FailedRowIsAdded : Prop :=
  (∀ (q : HoldQueue) (row : Nat), q.covered row = true ↔
    ∃ r ∈ q.failedRows, r.block = row / 128 ∧ (r.page = none ∨ r.page = some (row % 128))) ∧
  ∀ (table : List FailedRow) (block : Nat) (page : Option Nat), table.length ≤ 16 →
    let r : FailedRow := { block := block, page := page }
    let held := (⟨block, none⟩ : FailedRow) ∈ table ∨ r ∈ table
    let pages := table.filter (fun x => decide (x.block ≠ block))
    (held → addFailed table r = (table, false)) ∧
    (¬ held → page = none → (∃ x ∈ table, x.block = block) → addFailed table r = (pages ++ [r], false)) ∧
    (¬ held → (page ≠ none ∨ ∀ x ∈ table, x.block ≠ block) → table.length < 16 →
      addFailed table r = (table ++ [r], false)) ∧
    (¬ held → (page ≠ none ∨ ∀ x ∈ table, x.block ≠ block) → table.length = 16 →
      addFailed table r = (table.tail ++ [r], true))

/-- The pages of the report window (R159 to R162, R189, 10_formats.md 10.5, 10.6): a delivery begins at its column; pages 2 to
127 are blank; the summary page holds the listed values at their columns, with absent ones and unused columns 0xFF; the ring
page holds the oldest records, at most 128, each in its slot of 32 bytes (RecordsShowTheirFields says what these are), and its
spare area their number and the first sequence number. -/
def Obligations.ReportPagesShowTheState : Prop :=
  (∀ (s : State) (page column : Nat),
    s.reportPage page column = (s.reportPage page 0).drop column ∧
    (2 ≤ page → s.reportPage page 0 = List.replicate 4224 0xFF#8)) ∧
  (∀ s : State,
    let p := s.reportPage 0 0
    let c := s.front.counters
    p.length = 4224 ∧
    bytesField p 0 1 = (match s.control.state with
      | .starting => 0 | .service => 1 | .lineReset => 2 | .flushing => 3 | .spent => 4) ∧
    bytesField p 1 1 = (match s.drop.state with | .calm => 0 | .falling => 1 | .settling => 2) ∧
    ((p.getD 2 0).getLsbD 0 = decide (s.drop.state ≠ .calm) ∧ (p.getD 2 0).getLsbD 1 = !s.control.noteUsable ∧
      (p.getD 2 0).getLsbD 2 = s.control.startUpPending ∧ (p.getD 2 0).getLsbD 3 = s.gauge.derived.soc.isSome ∧
      (p.getD 2 0).getLsbD 4 = s.gauge.derived.minutes.isSome ∧ (p.getD 2 0).getLsbD 5 = s.gauge.stale ∧
      (p.getD 2 0).getLsbD 6 = s.gauge.outOfRange) ∧
    bytesField p 3 1 = (match s.control.profilePage with | none => 255 | some x => x % 256) ∧
    bytesField p 4 4 = s.drop.counter.toNat ∧ bytesField p 8 4 = s.drop.total.toNat ∧
    bytesField p 12 1 = s.queue.entries.length % 256 ∧ bytesField p 13 1 = s.queue.entries.countP (fun x => decide (x.disposition = .posted)) % 256 ∧
   
    bytesField p 14 1 = s.queue.entries.countP (fun x => decide (x.disposition ≠ .posted)) % 256 ∧
    bytesField p 15 1 = s.limit % 256 ∧
    bytesField p 16 1 = s.queue.failedRows.length % 256 ∧
    (∀ d : Die, bytesField p (17 + d.val) 1 = if d.val < s.control.installed then
      (match s.die d with | .idle => 0 | .busy _ => 1 | .offline => 2) else 3) ∧
    bytesField p 21 1 = (match s.gauge.state with | .unknown => 0 | .valid => 1) ∧
    bytesField p 22 1 = (match s.gauge.derived.level with
      | .unknown => 0 | .normal => 1 | .low => 2 | .critical => 3) ∧
    bytesField p 23 1 = (match s.gauge.derived.soc with | none => 255 | some x => x % 256) ∧
    p.getD 24 0 = BitVec.ofInt 8 s.gauge.temperature ∧
    bytesField p 26 2 = (match s.gauge.derived.minutes with | none => 65535 | some x => x % 65536) ∧
    bytesField p 28 2 = (match s.gauge.derived.remaining with | none => 65535 | some x => x / 16000 % 65536) ∧
    bytesField p 30 2 = s.gauge.learned / 16000 % 65536 ∧
    bytesField p 32 2 = c.sequence % 65536 ∧ bytesField p 34 2 = c.qualifier % 65536 ∧
    bytesField p 36 2 = c.address % 65536 ∧ bytesField p 38 2 = c.closed % 65536 ∧
    bytesField p 40 2 = c.service % 65536 ∧ bytesField p 42 2 = c.state % 65536 ∧
    bytesField p 44 2 = s.media.mediaFailures % 65536 ∧
    bytesField p 48 4 = (match s.report.ring.head? with | none => s.report.next | some x => x.number).toNat ∧
    bytesField p 52 4 = (match s.report.ring.getLast? with | none => s.report.next - 1 | some x => x.number).toNat ∧
    bytesField p 56 4 = s.report.ring.length % 4294967296 ∧ bytesField p 60 4 = s.report.next.toNat ∧
    bytesField p 64 4 = s.tick.toNat ∧
    ∀ x, (x = 25 ∨ x = 46 ∨ x = 47 ∨ 68 ≤ x ∧ x < 4224) → p[x]? = some 0xFF#8) ∧
  ∀ s : State,
    let p := s.reportPage 1 0
    let m := min 128 s.report.ring.length
    p.length = 4224 ∧ bytesField p 4096 2 = m ∧
    bytesField p 4098 4 = (match s.report.ring.head? with | none => s.report.next | some x => x.number).toNat ∧
    (∀ x, (32 * m ≤ x ∧ x < 4096 ∨ 4102 ≤ x ∧ x < 4224) → p[x]? = some 0xFF#8) ∧
    ∀ i r, i < 128 → s.report.ring[i]? = some r → ∀ j, j < 32 → p[32 * i + j]? = r.bytes[j]?

/-- A record's slot (R189, 10_formats.md 10.6): the kind code, the presence flags, the timestamp and every field of the eight
kinds at its offset; a number whose field is absent reads 0xFF in every byte, a count wider than its field is shown saturated,
and payload bytes the kind does not use read 0xFF. What the bit of an absent flag or code reads is left open (log entry 9). -/
def Obligations.RecordsShowTheirFields : Prop :=
  ∀ r : Record,
    let b := r.bytes
    let flags (f0 f1 f2 f3 f4 : Bool) : Prop :=
      (b.getD 0 0).getLsbD 3 = f0 ∧ (b.getD 0 0).getLsbD 4 = f1 ∧ (b.getD 0 0).getLsbD 5 = f2 ∧
      (b.getD 0 0).getLsbD 6 = f3 ∧ (b.getD 0 0).getLsbD 7 = f4
    let bit (offset i : Nat) : Bool := (b.getD offset 0).getLsbD i
    let shown (n : Nat) (v : Option Nat) : Nat :=
      match v with
      | none => 256 ^ n - 1
      | some x => x % 256 ^ n
    let unused (first : Nat) : Prop := ∀ c, first ≤ c → c < 32 → b[c]? = some 0xFF#8
    b.length = 32 ∧ bytesField b 1 4 = r.stamp.toNat ∧
    bytesField b 0 1 % 8 = (match r.payload with
      | .start _ => 0 | .drop _ => 1 | .battery _ => 2 | .commitFail _ => 3 | .dieOffline _ => 4 | .profile _ => 5
      | .refusal _ => 6 | .sensor _ => 7) ∧
    (∀ x, r.payload = .start x →
      flags x.notePage.isSome x.counts.isSome x.rows.isSome x.drained.isSome x.eventTick.isSome ∧
      bytesField b 5 1 = (match x.cause with
        | .powerOnClean => 0 | .powerOnUnclean => 1 | .powerOnNoNote => 2 | .lineReset => 3 | .dipRecovery => 4) ∧
      bit 6 0 = x.answering.die0 ∧ bit 6 1 = x.answering.die1 ∧ bit 6 2 = x.answering.die2 ∧
      bit 6 3 = x.answering.die3 ∧ bit 6 4 = x.noteFault ∧ (∀ y, x.rows = some y → bit 6 5 = y.overflow) ∧
      (∀ y, x.drained = some y → bit 6 6 = y.withdrawn) ∧
      bytesField b 7 1 = shown 1 x.notePage ∧
      bytesField b 8 1 = shown 1 (x.counts.map (fun y => min 255 y.committed)) ∧
      bytesField b 9 1 = shown 1 (x.counts.map (fun y => min 255 y.failed)) ∧
      bytesField b 10 1 = shown 1 (x.counts.map (fun y => min 255 y.lost)) ∧
      bytesField b 11 1 = (match x.flushNote with
        | some .written => 0 | some .failed => 1 | some .skipped => 2 | none => 3) ∧
      bytesField b 12 1 = shown 1 (x.rows.map (fun y => min 255 y.count)) ∧
      bytesField b 13 1 = shown 1 (x.drained.map (fun y => min 255 y.committed)) ∧
      bytesField b 14 1 = shown 1 (x.drained.map (fun y => min 255 y.failed)) ∧
      bytesField b 15 4 = shown 4 (x.eventTick.map BitVec.toNat) ∧ unused 19) ∧
    (∀ x, r.payload = .drop x →
      flags x.measure.isSome x.longestWidth.isSome false false false ∧
      bytesField b 5 4 = x.number.toNat ∧ bytesField b 9 4 = x.openTick.toNat ∧
      bytesField b 13 4 = x.closeTick.toNat ∧ bytesField b 17 2 = shown 2 (x.measure.map (fun y => y.span)) ∧
      bytesField b 19 2 = shown 2 (x.measure.map (fun y => y.height)) ∧ bytesField b 21 2 = shown 2 x.longestWidth ∧
      bytesField b 23 2 = min 65535 x.airborne ∧ bytesField b 25 1 = min 255 x.onsetCount ∧
      bytesField b 26 1 = min 255 x.falls ∧ bytesField b 27 1 = min 255 x.impacts ∧
      bytesField b 28 1 = min 255 x.postedHeld ∧ bytesField b 29 1 = min 255 x.awaitingHeld ∧
      bytesField b 30 1 = min 255 x.failed ∧
      bytesField b 31 1 % 4 = (match x.kind with | .fall => 0 | .catch_ => 1 | .knock => 2 | .multiple => 3) ∧
      bit 31 2 = x.ceilingMark ∧ bit 31 3 = x.powerDip) ∧
    (∀ x, r.payload = .battery x →
      flags x.soc.isSome x.remainingMah.isSome x.minutes.isSome false false ∧
      bytesField b 5 1 = (match x.reason with
        | .periodic => 0 | .level => 1 | .state => 2 | .learned => 3 | .packOut => 4 | .packIn => 5) ∧
      bit 6 0 = decide (x.state = .valid) ∧
      bytesField b 6 1 / 2 % 4 = (match x.level with | .unknown => 0 | .normal => 1 | .low => 2 | .critical => 3) ∧
      bit 6 3 = x.stale ∧ bit 6 4 = x.outOfRange ∧ bytesField b 7 1 = shown 1 x.soc ∧
      b.getD 8 0 = BitVec.ofInt 8 x.temperature ∧ bytesField b 9 2 = shown 2 x.remainingMah ∧
      bytesField b 11 2 = x.learnedMah % 65536 ∧ bytesField b 13 2 = shown 2 x.minutes ∧
      bytesField b 15 2 = x.factor % 65536 ∧ unused 17) ∧
    (∀ x, r.payload = .commitFail x →
      flags x.page.isSome x.dropTag.isSome false false false ∧
      bit 5 0 = decide (x.kind = .erase) ∧
      bytesField b 5 1 / 2 % 4 = (match x.cause with | .media => 0 | .timeout => 1 | .offline => 2 | .lost => 3) ∧
      bit 5 3 = x.awaiting ∧ bit 5 4 = x.overflow ∧
      bytesField b 6 1 = (match x.origin with | .window n => n % 256 | .absolute => 0x80) ∧
      bytesField b 7 2 = x.block % 65536 ∧ bytesField b 9 1 = shown 1 x.page ∧
      bytesField b 10 4 = shown 4 (x.dropTag.map BitVec.toNat) ∧ bytesField b 14 4 = x.acceptTick.toNat ∧
      unused 18) ∧
    (∀ x, r.payload = .dieOffline x →
      flags x.block.isSome x.page.isSome false false false ∧
      bytesField b 5 1 % 4 = x.die.val ∧ bit 5 2 = decide (x.cause = .noAnswer) ∧
      bytesField b 5 1 / 8 % 4 = (match x.operation with | .read => 0 | .program => 1 | .erase => 2 | .reset => 3) ∧
      bytesField b 5 1 / 32 % 4 = (match x.requester with | .front => 0 | .commit => 1 | .service => 2) ∧
      bytesField b 6 2 = shown 2 x.block ∧ bytesField b 8 1 = shown 1 x.page ∧
      bytesField b 9 4 = x.busyStart.toNat ∧ bytesField b 13 1 = x.timeoutMs % 256 ∧ unused 14) ∧
    (∀ x, r.payload = .profile x →
      flags x.page.isSome x.generation.isSome x.reason.isSome x.pagesFailed.isSome false ∧
      bytesField b 5 1 % 4 = (match x.source with | .startUp => 0 | .lineReset => 1 | .service => 2) ∧
      bytesField b 5 1 / 4 % 8 = (match x.outcome with
        | .applied => 0 | .partly => 1 | .rejected => 2 | .defaults => 3 | .notRead => 4) ∧
      bit 5 5 = x.clamped ∧ bit 5 6 = x.pending ∧ (∀ y, x.reason = some y → bit 5 7 = decide (y = .table)) ∧
      bytesField b 6 1 = shown 1 x.page ∧ bytesField b 7 2 = shown 2 x.generation ∧
      (∀ w, w < 16 → (bit (9 + w / 8) (w % 8) = true ↔ w < 14 ∧ w ∈ x.rejection)) ∧
      bytesField b 11 1 = shown 1 x.pagesFailed ∧ unused 12) ∧
    (∀ x, r.payload = .refusal x →
      let code (k : OpKind) : Nat := (match k with | .read => 0 | .program => 1 | .erase => 2)
      flags false false false false false ∧
      bytesField b 5 1 % 4 = (match x.cause with | .address => 0 | .closed => 1 | .service => 2) ∧
      bytesField b 5 1 / 4 % 4 = code x.firstOp ∧ bit 5 4 = x.firstAbsolute ∧
      bytesField b 5 1 / 32 % 4 = code x.lastOp ∧ bytesField b 6 3 = x.firstRow.toNat ∧
      bytesField b 9 3 = x.lastRow.toNat ∧ bytesField b 12 4 = x.lastTick.toNat ∧
      bytesField b 16 2 = r.count % 65536 ∧ unused 18) ∧
    (∀ drop highSince ceilingMs, r.payload = .sensor (.suspended drop highSince ceilingMs) →
      flags true highSince.isSome true false false ∧ bytesField b 5 1 % 8 = 0 ∧ bytesField b 6 4 = drop.toNat ∧
      bytesField b 10 4 = shown 4 (highSince.map BitVec.toNat) ∧ bytesField b 14 2 = ceilingMs % 65536 ∧
      unused 16) ∧
    ∀ since, r.payload = .sensor (.resumed since) →
      flags false false false true false ∧ bytesField b 5 1 % 8 = 1 ∧ bytesField b 16 4 = since.toNat ∧
      ∀ c, 6 ≤ c → c < 32 → (c < 16 ∨ 20 ≤ c) → b[c]? = some 0xFF#8

/-- The note page (R142, R146, R171, R186, R188, 10_formats.md 10.4): the columns of a FLUSH note and of an OPENED note, zero
where the table gives 0 and 0xFF from column 98, with the page check passed; and what each column of any note page is decoded
as. The fields of a note read back as they were composed, each within its width. What the unused bits of the flag byte are is
left open (log entry 9). -/
def Obligations.NotesReadBack : Prop :=
  (∀ (stamp dropCounter sequence : Tick) (gauge : GaugeNote) (rows : List FailedRow) (overflow : Bool)
      (counts : FlushCounts),
    gauge.remaining < 4294967296 → gauge.learned < 4294967296 → gauge.drawn < 4294967296 →
    counts.committed < 256 → counts.failed < 256 → counts.lost < 256 →
    (∀ r ∈ rows, r.block < 32768 ∧ ∀ p, r.page = some p → p < 128) →
    let page := flushNote stamp dropCounter sequence gauge rows overflow counts
    (Page.Canonical page ∧ notePageOk page = true ∧ noteIsFlush page = true ∧ noteDropCounter page = dropCounter ∧
      noteSequence page = sequence ∧ noteGauge page = gauge ∧ noteRows page = rows.take 16 ∧
      noteOverflow page = overflow ∧ noteCounts page = counts) ∧
    readField page 0 2 = 0xB35C ∧ readField page 2 1 = 2 ∧
    (readCell page 3).getLsbD 0 = gauge.valid ∧ (readCell page 3).getLsbD 1 = gauge.anchor ∧
    (readCell page 3).getLsbD 2 = overflow ∧
    readField page 4 4 = stamp.toNat ∧ readField page 8 4 = dropCounter.toNat ∧ readField page 12 4 = sequence.toNat ∧
    readField page 16 4 = gauge.remaining ∧ readField page 20 4 = gauge.learned ∧ readField page 24 4 = gauge.drawn ∧
    readField page 28 1 = counts.committed ∧ readField page 29 1 = counts.failed ∧ readField page 30 1 = counts.lost ∧
    readField page 31 1 = min 16 rows.length ∧
    (∀ i r, i < 16 → rows[i]? = some r →
      readField page (32 + 4 * i) 2 = r.block ∧
      readField page (34 + 4 * i) 1 = (match r.page with | none => 255 | some p => p) ∧
      readField page (35 + 4 * i) 1 = 0) ∧
    (∀ i, rows.length ≤ i → i < 16 → readField page (32 + 4 * i) 4 = 0) ∧
    ∀ c, 98 ≤ c → readCell page c = 0xFF#8) ∧
  (∀ stamp dropCounter sequence : Tick,
    let page := openedNote stamp dropCounter sequence
    (Page.Canonical page ∧ notePageOk page = true ∧ noteIsFlush page = false ∧ noteDropCounter page = dropCounter ∧
      noteSequence page = sequence) ∧
    readField page 0 2 = 0xB35C ∧ readField page 2 1 = 1 ∧ readField page 3 1 = 0 ∧
    readField page 4 4 = stamp.toNat ∧ readField page 8 4 = dropCounter.toNat ∧ readField page 12 4 = sequence.toNat ∧
    (∀ c, 16 ≤ c → c < 96 → readCell page c = 0#8) ∧ ∀ c, 98 ≤ c → readCell page c = 0xFF#8) ∧
  ∀ page : Page,
    (noteIsFlush page = true ↔ readField page 2 1 = 2) ∧
    (noteDropCounter page).toNat = readField page 8 4 ∧ (noteSequence page).toNat = readField page 12 4 ∧
    noteGauge page = { remaining := readField page 16 4, learned := readField page 20 4
                       valid := (readCell page 3).getLsbD 0, anchor := (readCell page 3).getLsbD 1
                       drawn := readField page 24 4 } ∧
    noteOverflow page = (readCell page 3).getLsbD 2 ∧
    noteCounts page =
      { committed := readField page 28 1, failed := readField page 29 1, lost := readField page 30 1 } ∧
    ∃ parts : List (List FailedRow), noteRows page = parts.flatten ∧ parts.length = min 16 (readField page 31 1) ∧
      ∀ i part, parts[i]? = some part →
        let block := readField page (32 + 4 * i) 2
        let byte := readField page (34 + 4 * i) 1
        (32768 ≤ block ∨ 128 ≤ byte ∧ byte ≤ 254 → part = []) ∧
        (block < 32768 → byte = 255 → part = [{ block := block, page := none }]) ∧
        (block < 32768 → byte < 128 → part = [{ block := block, page := some byte }])

/-- The page check and the profile record (R171, R186, R187, 10_formats.md 10.3): a field is its bytes, least significant
first; the check is the tag, for a note its kind, and the sum of 64 or of 49 words; an erased page is one whose 4224 bytes are
all 0xFF; and every field of the profile record is what its columns hold, the four temperatures signed, a window's three flags
its bits 0 to 2 of byte 4 of its six. That a page is kept as the list of its bytes other than 0xFF is the model's choice (log
entry 7), as is the word sum by its definition (log entry 29). -/
def Obligations.PagesAreCheckedAndDecoded : Prop :=
  ∀ page : Page,
    let cell (c : Nat) : Nat := (readCell page c).toNat
    let word (c : Nat) : Nat := cell c + 256 * cell (c + 1)
    let sum (n : Nat) : Nat := ((List.range n).map (fun i => word (2 * i))).sum
    let bit (c i : Nat) : Bool := (readCell page c).getLsbD i
    (∀ c, readField page c 1 = cell c ∧ readField page c 2 = word c ∧
      readField page c 4 = word c + 65536 * word (c + 2)) ∧
    (profilePageOk page = true ↔ word 0 = 0x7E31 ∧ sum 64 % 65536 = 0) ∧
    (notePageOk page = true ↔ word 0 = 0xB35C ∧ (cell 2 = 1 ∨ cell 2 = 2) ∧ sum 49 % 65536 = 0) ∧
    (Page.Canonical page ↔ (page.map Prod.fst).Pairwise (· < ·) ∧ ∀ x ∈ page, x.1 < 4224 ∧ x.2 ≠ 0xFF#8) ∧
    (Page.Canonical page → ∀ c, (∀ b, (c, b) ∈ page → readCell page c = b) ∧
      ((∀ b, (c, b) ∉ page) → readCell page c = 0xFF#8)) ∧
    (Page.Canonical page → (page = [] ↔ ∀ c, c < 4224 → readCell page c = 0xFF#8)) ∧
    let p := decodeProfile page
    let v := p.live
    p.generation = word 2 ∧ p.installed = cell 4 ∧ p.rres = cell 5 ∧
    v.serviceAccess = bit 6 0 ∧ v.knockHold = bit 6 1 ∧ v.patience = cell 7 ∧ v.dieTimeoutMs = cell 8 ∧
    v.mergeMs = cell 9 ∧ v.settleMs = word 10 ∧ v.ceilingMs = word 12 ∧ v.latency = word 14 ∧
    v.mask.toNat = word 16 ∧ v.weight = word 18 ∧ v.nominal = word 20 ∧ v.low = cell 22 ∧ v.critical = cell 23 ∧
    v.zeroCount = word 24 ∧ v.perDegree = word 26 ∧
    (∀ c x, (c, x) ∈ [(28, v.derate.p1), (31, v.derate.p2), (34, v.derate.p3), (37, v.derate.p4)] →
      x.temperature = (if cell c < 128 then (cell c : Int) else (cell c : Int) - 256) ∧ x.factor = word (c + 1)) ∧
    v.interval = word 40 ∧ v.windows.length = 14 ∧
    ∀ w x, v.windows[w]? = some x →
      x.base = word (42 + 6 * w) ∧ x.extent = word (44 + 6 * w) ∧ x.enabled = bit (46 + 6 * w) 0 ∧
      x.holdEligible = bit (46 + 6 * w) 1 ∧ x.closed = bit (46 + 6 * w) 2

/-! ### Invariants -/

/-- R151, R152, R154, R164: the ring's consecutive sequence numbers, the repeat counts, the slots and ATTN, at every step.
(The order of the ring's DROP records, which R152 gives too, is in DropLawIsKept.) -/
def Obligations.ReportLawIsKept : Prop := ∀ s t : State, s.ReportLaw → step s = .next t → t.ReportLaw

/-- R110, with the bounds R107 gives the gauge's state and R173 the settings, at every step. -/
def Obligations.GaugeLawIsKept : Prop := ∀ s t : State, s.GaugeLaw → step s = .next t → t.GaugeLaw

/-- R44, R45 and where the sequences stand, at every step. -/
def Obligations.QueueLawIsKept : Prop := ∀ s t : State, s.QueueLaw → step s = .next t → t.QueueLaw

/-- R57: no row covered twice, at most 16 records, at every step. -/
def Obligations.FailedRowLawIsKept : Prop := ∀ s t : State, s.FailedRowLaw → step s = .next t → t.FailedRowLaw

/-- R13: no front write names the note block, and the profile block only with the profile flag, at every step. -/
def Obligations.AddressLawIsKept : Prop := ∀ s t : State, s.AddressLaw → step s = .next t → t.AddressLaw

/-- At every step: each drop's outstanding count is the number of entries with its tag (R97), the drops are numbered
consecutively up to the counter (R83, R98), and the tags do not decrease from the oldest entry to the youngest (R46), given the
queue's law. The DROP records of the ring and, after them, the pending drops are numbered consecutively up to the counter, and
none is in the ring before the load (R152, R100, R103). Therefore DROP records stand in the ring in increasing drop number in
the order of numbering, each older than every pending drop (R152). -/
def Obligations.DropLawIsKept : Prop :=
  (∀ s t : State, s.QueueLaw → s.DropLaw → step s = .next t → t.DropLaw) ∧
  (∀ s t : State, s.DropRecordLaw → step s = .next t → t.DropRecordLaw) ∧
  ∀ s : State, s.ReportLaw → s.DropLaw → s.DropRecordLaw →
    s.dropNumbers.Pairwise (fun a b => (s.drop.counter - b).toNat < (s.drop.counter - a).toNat)

/-- R47, R49: a die commits exactly its oldest entry, at every step. -/
def Obligations.CommitLawIsKept : Prop := ∀ s t : State, s.CommitLaw → step s = .next t → t.CommitLaw

/-- R65, R69, R39: the shared lines, the patience counters and the failure count, at every step. -/
def Obligations.SchedulerLawIsKept : Prop := ∀ s t : State, s.SchedulerLaw → step s = .next t → t.SchedulerLaw

/-- Every page the part holds stays in canonical form, at every step; the form is the model's choice (log entry 7). -/
def Obligations.PageLawIsKept : Prop := ∀ s t : State, s.PageLaw → step s = .next t → t.PageLaw

/-- What an IDLE die is granted (R66 to R71, R135): a program or erase only in CALM or FLUSHING; a commit is the die's oldest
entry, WAITING, outside SPENT, and in FLUSHING only with 2 units of budget and, for the AWAITING entry, no POSTED entry
WAITING; a front read contests exactly where a commit that may be granted waits too, and wins only below the drain patience, a
commit then only at it; a waiting ungated service operation goes first; and nothing is granted only where nothing that may be
granted waits. The Hold Queue offers exactly the die's oldest entry, while it is WAITING and commits are allowed (R47, R48),
and an offer may be granted by the gate, the budget and the AWAITING entry's place (R70, R71, R135). A service operation's die
and media operation (R66), and the die on which a row lies (R2), in words. -/
def Obligations.GrantsObeyGateBudgetAndPatience : Prop :=
  (∀ op : ServiceOp,
    (op.isProbe = true ↔ ∃ d, op = .probe d) ∧
    op.die = (match op with
      | .probe d => d | .profileRead _ => 0 | .noteRead _ => 0 | .noteErase => 0 | .openedNote => 0
      | .flushNote _ => 0) ∧
    op.media = (match op with
      | .probe _ => .reset | .profileRead _ => .read | .noteRead _ => .read | .noteErase => .erase
      | .openedNote => .program | .flushNote _ => .program)) ∧
  (∀ kind : MediaKind, kind.isWrite = true ↔ kind = .program ∨ kind = .erase) ∧
  (∀ (d : Die) (row : Nat), rowOnDie d row = true ↔ row / 1048576 = d.val) ∧
  (∀ (s : State) (d : Die) (g : Grant), s.grantFor d = some g →
    (∀ e, g = .commit e →
      s.queue.entries.find? (fun x => rowOnDie d x.row) = some e ∧ e.progress = .waiting ∧
      s.control.state ≠ .spent ∧ (s.drop.state = .calm ∨ s.control.state = .flushing) ∧
      (s.control.state = .flushing → 2 ≤ s.control.budget ∧
        (e.disposition = .posted ∨
          ∀ x ∈ s.queue.entries, x.disposition = .posted → x.progress = .committing)) ∧
      (∀ row, s.media.frontRead = some row → rowOnDie d row = true →
        s.control.settings.patience ≤ (s.media.dies.get d).patience)) ∧
    (∀ r, g = .service r → r ∈ s.media.services ∧ r.op.die = d ∧
      (r.op.media = .program ∨ r.op.media = .erase → s.drop.state = .calm ∨ s.control.state = .flushing)) ∧
    (∀ row contested, g = .front row contested →
      s.media.frontRead = some row ∧ rowOnDie d row = true ∧
      (contested = true ↔ ∃ e, s.offer d = some e ∧ s.grantable e = true) ∧
      (contested = true → (s.media.dies.get d).patience < s.control.settings.patience)) ∧
    ((∃ r ∈ s.media.services, r.op.die = d ∧ r.op.isProbe = false ∧
        (r.op.media.isWrite = false ∨ s.drop.state = .calm ∨ s.control.state = .flushing)) → ∃ r, g = .service r)) ∧
  (∀ (s : State) (d : Die), s.grantFor d = none ↔
    (∀ r ∈ s.media.services, r.op.die = d → r.op.isProbe = false →
      r.op.media.isWrite = true ∧ s.drop.state ≠ .calm ∧ s.control.state ≠ .flushing) ∧
    (∀ row, s.media.frontRead = some row → rowOnDie d row = false) ∧
    ∀ e, s.offer d = some e → s.grantable e = false) ∧
  ∀ (s : State) (d : Die) (e : Entry),
    (s.offer d = some e ↔
      s.queue.entries.find? (fun x => rowOnDie d x.row) = some e ∧ e.progress = .waiting ∧
      (s.control.state = .flushing ∨ s.control.state ≠ .spent ∧ s.drop.state = .calm)) ∧
    (s.grantable e = true ↔
      (s.drop.state = .calm ∨ s.control.state = .flushing) ∧
      (s.control.state = .flushing → 2 ≤ s.control.budget ∧
        (e.disposition = .posted ∨
          ∀ x ∈ s.queue.entries, x.disposition = .posted → x.progress = .committing)))

end Statements
end

