-- ==== Sys2Proof/Laws/Page.lean ====
section
/-! SUPPORT. Pages: every operation keeps the canonical form, and what a byte reads as after it. -/

namespace Sys2Proof

theorem Page.wfFrom_cons {least column : Nat} {byte : Byte} {rest : Page} :
    Page.wfFrom least ((column, byte) :: rest) = true ↔
      least ≤ column ∧ column < 4224 ∧ byte ≠ 0xFF#8 ∧ Page.wfFrom (column + 1) rest = true := by
  simp [Page.wfFrom, and_assoc]

theorem Page.wfFrom_mono {m n : Nat} (h : m ≤ n) {p : Page} (hp : Page.wfFrom n p = true) : Page.wfFrom m p = true := by
  cases p with
  | nil => rfl
  | cons x p =>
    obtain ⟨column, byte⟩ := x
    rw [Page.wfFrom_cons] at hp ⊢
    exact ⟨h.trans hp.1, hp.2⟩

end Sys2Proof

namespace Sys2Proof.Machine

theorem readCell_of_lt {p : Page} {least c : Nat} (h : Page.wfFrom least p = true) (hc : c < least) :
    readCell p c = 0xFF#8 := by
  induction p generalizing least with
  | nil => rfl
  | cons x p ih =>
    obtain ⟨column, byte⟩ := x
    rw [Page.wfFrom_cons] at h
    have : column ≠ c := by omega
    simp only [readCell, this, if_false]
    exact ih h.2.2.2 (by omega)

theorem putCell_wfFrom {p : Page} {least c : Nat} (b : Byte) (h : Page.wfFrom least p = true) (hl : least ≤ c)
    (hc : c < 4224) : Page.wfFrom least (putCell p c b) = true := by
  induction p generalizing least with
  | nil =>
    unfold putCell
    split
    · rfl
    · rw [Page.wfFrom_cons]; exact ⟨hl, hc, ‹_›, rfl⟩
  | cons x p ih =>
    obtain ⟨column, byte⟩ := x
    have hx := h
    rw [Page.wfFrom_cons] at hx
    obtain ⟨h1, h2, h3, h4⟩ := hx
    unfold putCell
    split
    · split
      · exact h
      · rw [Page.wfFrom_cons, Page.wfFrom_cons]; exact ⟨hl, hc, ‹_›, by omega, h2, h3, h4⟩
    · split
      · subst_vars
        split
        · exact Page.wfFrom_mono (by omega) h4
        · rw [Page.wfFrom_cons]; exact ⟨h1, h2, ‹_›, h4⟩
      · rw [Page.wfFrom_cons]; exact ⟨h1, h2, h3, ih h4 (by omega)⟩

theorem readCell_putCell {p : Page} {least : Nat} (c d : Nat) (b : Byte) (h : Page.wfFrom least p = true) :
    readCell (putCell p c b) d = if d = c then b else readCell p d := by
  induction p generalizing least with
  | nil =>
    unfold putCell
    split
    · simp_all [readCell]
    · simp [readCell, eq_comm]
  | cons x p ih =>
    obtain ⟨column, byte⟩ := x
    rw [Page.wfFrom_cons] at h
    obtain ⟨-, -, -, h4⟩ := h
    unfold putCell
    split
    · have hp : ∀ e, e ≤ c → readCell p e = 0xFF#8 := fun e he => readCell_of_lt h4 (by omega)
      split
      · by_cases hd : d = c
        · have : column ≠ c := by omega
          subst hd; simp [readCell, hp d le_rfl, *]
        · simp [hd]
      · by_cases hd : d = c
        · simp [readCell, hd]
        · simp [readCell, hd, Ne.symm hd]
    · split
      · subst_vars
        split
        · by_cases hd : d = column
          · subst hd; simp [readCell_of_lt h4 (Nat.lt_succ_self d), *]
          · simp [readCell, hd, Ne.symm hd]
        · by_cases hd : d = column
          · simp [readCell, hd]
          · simp [readCell, hd, Ne.symm hd]
      · by_cases hd : d = column
        · have : d ≠ c := by omega
          subst hd
          simp [readCell, this]
        · simp [readCell, Ne.symm hd, ih h4]

/-! ### Canonical form -/

@[simp] theorem Page.canonical_nil : Page.Canonical [] := rfl

theorem Page.Canonical.writePage {p : Page} (h : Page.Canonical p) (c : Nat) (b : Byte) :
    Page.Canonical (writePage p c b) := by
  unfold Machine.writePage
  split
  · exact putCell_wfFrom b h (Nat.zero_le c) ‹_›
  · exact h

theorem readCell_writePage {p : Page} (h : Page.Canonical p) (c d : Nat) (b : Byte) :
    readCell (writePage p c b) d = if d = c ∧ c < 4224 then b else readCell p d := by
  unfold writePage
  split
  · rw [readCell_putCell c d b h]; simp [*]
  · simp [*]

theorem Page.Canonical.writeBytes {p : Page} (h : Page.Canonical p) (c : Nat) (bs : List Byte) :
    Page.Canonical (writeBytes p c bs) := by
  induction bs generalizing p c with
  | nil => exact h
  | cons b bs ih => exact ih (h.writePage c b) (c + 1)

/-- What a byte reads as after consecutive bytes have been written within the page. -/
theorem readCell_writeBytes {p : Page} (h : Page.Canonical p) (c : Nat) (bs : List Byte) (hc : c + bs.length ≤ 4224)
    (d : Nat) :
    readCell (writeBytes p c bs) d = if h : c ≤ d ∧ d - c < bs.length then bs[d - c] else readCell p d := by
  induction bs generalizing p c with
  | nil => simp [writeBytes]
  | cons b bs ih =>
    simp only [List.length_cons] at hc
    rw [writeBytes, ih (h.writePage c b) (c + 1) (by omega), readCell_writePage h]
    rcases lt_trichotomy d c with hd | hd | hd
    · rw [dif_neg (by omega), if_neg (by omega), dif_neg (by omega)]
    · subst hd
      rw [dif_neg (by omega), if_pos ⟨rfl, by omega⟩, dif_pos ⟨le_rfl, by simp⟩]
      simp
    · obtain ⟨k, rfl⟩ : ∃ k, d = c + 1 + k := ⟨d - (c + 1), by omega⟩
      have e1 : c + 1 + k - c = k + 1 := by omega
      have e2 : c + 1 + k - (c + 1) = k := by omega
      by_cases hk : k < bs.length
      · rw [dif_pos ⟨by omega, by omega⟩, dif_pos ⟨by omega, by simp [e1, hk]⟩]
        simp only [e1, e2, List.getElem_cons_succ]
      · rw [dif_neg (by omega), if_neg (by omega), dif_neg (by simp [e1, hk])]

theorem foldl_writePage_canonical (cells : Page) {p : Page} (h : Page.Canonical p) :
    Page.Canonical (cells.foldl (fun page cell => writePage page cell.1 cell.2) p) := by
  induction cells generalizing p with
  | nil => exact h
  | cons x cells ih => exact ih (h.writePage x.1 x.2)

theorem normalizePage_canonical (cells : Page) : Page.Canonical (normalizePage cells) :=
  foldl_writePage_canonical cells rfl

theorem readCell_foldl_writePage (cells : Page) {least : Nat} (hw : Page.wfFrom least cells = true) {p : Page}
    (h : Page.Canonical p) (d : Nat) :
    readCell (cells.foldl (fun page cell => writePage page cell.1 cell.2) p) d =
      if d < least ∨ readCell cells d = 0xFF#8 then readCell p d else readCell cells d := by
  induction cells generalizing p least with
  | nil => simp [readCell]
  | cons x cells ih =>
    obtain ⟨column, byte⟩ := x
    rw [Page.wfFrom_cons] at hw
    obtain ⟨h1, h2, h3, h4⟩ := hw
    rw [List.foldl_cons, ih h4 (h.writePage column byte), readCell_writePage h]
    rcases lt_trichotomy d column with hd | hd | hd
    · have : readCell cells d = 0xFF#8 := readCell_of_lt h4 (by omega)
      have hne : column ≠ d := by omega
      have hne' : d ≠ column := by omega
      simp [readCell, this, hne, hne']
    · subst hd
      have hnl : ¬ d < least := by omega
      simp [readCell, h2, h3, hnl]
    · have hnl : ¬ d < least := by omega
      have hnl' : ¬ d < column + 1 := by omega
      have hne : column ≠ d := by omega
      have hne' : d ≠ column := by omega
      simp [readCell, hnl, hnl', hne, hne']

/-- A page already in canonical form reads the same after normalising. -/
theorem readCell_normalizePage {p : Page} (h : Page.Canonical p) (d : Nat) :
    readCell (normalizePage p) d = readCell p d := by
  unfold normalizePage
  rw [readCell_foldl_writePage p (least := 0) h Page.canonical_nil]
  simp only [Nat.not_lt_zero, false_or]
  split
  · simp [readCell, *]
  · rfl

/-! ### The bytewise AND (R61) -/

theorem Page.Canonical.andPage {p : Page} (h : Page.Canonical p) (image : Page) : Page.Canonical (andPage p image) := by
  unfold Machine.andPage
  induction image generalizing p with
  | nil => exact h
  | cons x image ih => exact ih (h.writePage x.1 _)

theorem readCell_foldl_and (image : Page) {least : Nat} (hw : Page.wfFrom least image = true) {p : Page}
    (h : Page.Canonical p) (d : Nat) :
    readCell (image.foldl (fun acc cell => writePage acc cell.1 (readCell acc cell.1 &&& cell.2)) p) d =
      readCell p d &&& readCell image d := by
  induction image generalizing p least with
  | nil =>
    have : readCell p d &&& 0xFF#8 = readCell p d := BitVec.and_allOnes
    simp [readCell, this]
  | cons x image ih =>
    obtain ⟨column, byte⟩ := x
    rw [Page.wfFrom_cons] at hw
    obtain ⟨h1, h2, h3, h4⟩ := hw
    rw [List.foldl_cons, ih h4 (h.writePage column _), readCell_writePage h]
    by_cases hd : d = column
    · subst hd
      have e1 : readCell image d = 0xFF#8 := readCell_of_lt h4 (by omega)
      have e2 : readCell p d &&& byte &&& 0xFF#8 = readCell p d &&& byte := BitVec.and_allOnes
      simp [readCell, h2, e1, e2]
    · have hne : column ≠ d := fun e => hd e.symm
      simp [readCell, hd, hne]

/-- The AND of two canonical pages reads as the AND of their bytes. -/
theorem readCell_andPage {p image : Page} (h : Page.Canonical p) (hi : Page.Canonical image) (d : Nat) :
    readCell (andPage p image) d = readCell p d &&& readCell image d :=
  readCell_foldl_and image hi h d

/-! ### Fields -/

theorem readField_lt (p : Page) (c n : Nat) : readField p c n < 256 ^ n := by
  induction n generalizing c with
  | zero => simp [readField]
  | succ n ih =>
    have h1 := ih (c + 1)
    have h2 := (readCell p c).isLt
    have h3 : (256 : Nat) ^ (n + 1) = 256 * 256 ^ n := by rw [Nat.pow_succ, Nat.mul_comm]
    unfold readField
    omega

theorem readField_one (p : Page) (c : Nat) : readField p c 1 = (readCell p c).toNat := by simp [readField]

theorem readField_two (p : Page) (c : Nat) :
    readField p c 2 = (readCell p c).toNat + 256 * (readCell p (c + 1)).toNat := by
  simp [readField]

/-- The words of R186 in bytes. -/
theorem sumWords_eq (p : Page) (c n : Nat) :
    sumWords p c n = ((List.range n).map (fun i =>
      (readCell p (c + 2 * i)).toNat + 256 * (readCell p (c + 2 * i + 1)).toNat)).sum := by
  induction n generalizing c with
  | zero => rfl
  | succ n ih =>
    rw [sumWords, ih, List.range_succ_eq_map, readField_two]
    simp only [List.map_cons, List.sum_cons, List.map_map, Nat.mul_zero, Nat.add_zero]
    congr 2
    apply List.map_congr_left
    intro i _
    show _ = (readCell p (c + 2 * (i + 1))).toNat + 256 * (readCell p (c + 2 * (i + 1) + 1)).toNat
    rw [show c + 2 + 2 * i = c + 2 * (i + 1) by ring]

@[simp] theorem leBytes_length (n v : Nat) : (leBytes n v).length = n := by
  induction n generalizing v with
  | zero => rfl
  | succ n ih => simp [leBytes, ih]

theorem pageBytes_length (p : Page) (c n : Nat) : (pageBytes p c n).length = n := by
  induction n generalizing c with
  | zero => rfl
  | succ n ih => simp [pageBytes, ih]

/-! ### The list form of a page -/

theorem Page.wfFrom_iff (n : Nat) (page : Page) : Page.wfFrom n page = true ↔
    (page.map Prod.fst).Pairwise (· < ·) ∧ ∀ x ∈ page, n ≤ x.1 ∧ x.1 < 4224 ∧ x.2 ≠ 0xFF#8 := by
  induction page generalizing n with
  | nil => simp [Page.wfFrom]
  | cons a l ih =>
    obtain ⟨c, b⟩ := a
    rw [Page.wfFrom_cons, ih]
    simp only [List.map_cons, List.pairwise_cons, List.mem_map, List.mem_cons]
    constructor
    · rintro ⟨h1, h2, h3, h4, h5⟩
      refine ⟨⟨?_, h4⟩, ?_⟩
      · rintro x ⟨y, hy, rfl⟩; exact (h5 y hy).1
      · rintro x (rfl | hx)
        · exact ⟨h1, h2, h3⟩
        · exact ⟨by have := (h5 x hx).1; omega, (h5 x hx).2⟩
    · rintro ⟨⟨h1, h2⟩, h3⟩
      have := h3 (c, b) (.inl rfl)
      exact ⟨this.1, this.2.1, this.2.2, h2, fun x hx => ⟨h1 _ ⟨x, hx, rfl⟩, (h3 x (.inr hx)).2⟩⟩

theorem Page.canonical_iff (page : Page) : Page.Canonical page ↔
    (page.map Prod.fst).Pairwise (· < ·) ∧ ∀ x ∈ page, x.1 < 4224 ∧ x.2 ≠ 0xFF#8 := by
  simp [Page.Canonical, Page.wf, Page.wfFrom_iff]

theorem readCell_of_not_mem {page : Page} {c : Nat} (h : ∀ b, (c, b) ∉ page) : readCell page c = 0xFF#8 := by
  induction page with
  | nil => rfl
  | cons a l ih =>
    obtain ⟨c', b⟩ := a
    have : c' ≠ c := by rintro rfl; exact h b (by simp)
    simp only [readCell, this, if_false]
    exact ih (fun b hb => h b (by simp [hb]))

theorem readCell_of_mem {page : Page} {c : Nat} {b : Byte} (hp : (page.map Prod.fst).Pairwise (· < ·))
    (h : (c, b) ∈ page) : readCell page c = b := by
  induction page with
  | nil => cases h
  | cons a l ih =>
    obtain ⟨c', b'⟩ := a
    simp only [List.map_cons, List.pairwise_cons] at hp
    rcases List.mem_cons.1 h with h | h
    · cases h; simp [readCell]
    · have : c' ≠ c := (hp.1 c (List.mem_map.2 ⟨_, h, rfl⟩)).ne
      simp only [readCell, this, if_false]
      exact ih hp.2 h

theorem pageBytes_eq (page : Page) (c n : Nat) :
    pageBytes page c n = (List.range n).map (fun i => readCell page (c + i)) := by
  induction n generalizing c with
  | zero => rfl
  | succ n ih => rw [pageBytes, ih, List.range_succ_eq_map]; simp [Nat.add_assoc, Nat.add_comm 1]

end Sys2Proof.Machine
end

