-- ==== Sys2Proof/Laws/Bytes.lean ====
section
/-! SUPPORT. The bytes of the report pages: lengths, and what a field of a composed list reads as (R162, R189). -/

namespace Sys2Proof.Machine

theorem bytesField_append_left (a b : List Byte) (c n : Nat) (h : c + n ≤ a.length) :
    bytesField (a ++ b) c n = bytesField a c n := by
  induction n generalizing c with
  | zero => rfl
  | succ n ih =>
    simp only [bytesField]
    rw [ih (c + 1) (by omega)]
    congr 2
    simp only [List.getD_eq_getElem?_getD]
    rw [List.getElem?_append_left (by omega)]

theorem bytesField_append_right (a b : List Byte) (c n : Nat) (h : a.length ≤ c) :
    bytesField (a ++ b) c n = bytesField b (c - a.length) n := by
  induction n generalizing c with
  | zero => rfl
  | succ n ih =>
    simp only [bytesField]
    rw [ih (c + 1) (by omega), show c + 1 - a.length = c - a.length + 1 by omega]
    congr 2
    simp only [List.getD_eq_getElem?_getD]
    rw [List.getElem?_append_right h]

@[simp] theorem blankBytes_length (n : Nat) : (blankBytes n).length = n := by simp [blankBytes]

@[simp] theorem optBytes_length (n : Nat) (o : Option Nat) : (optBytes n o).length = n := by
  cases o <;> simp [optBytes]

/-- A field reads back as the number it holds, modulo its width. -/
theorem bytesField_leBytes (n v : Nat) : bytesField (leBytes n v) 0 n = v % 256 ^ n := by
  induction n generalizing v with
  | zero => simp [bytesField, Nat.mod_one]
  | succ n ih =>
    simp only [leBytes, bytesField]
    have := bytesField_append_right [BitVec.ofNat 8 v] (leBytes n (v / 256)) 1 n (by simp)
    simp only [List.cons_append, List.nil_append, List.length_cons, List.length_nil, Nat.sub_self] at this
    rw [show bytesField (BitVec.ofNat 8 v :: leBytes n (v / 256)) (0 + 1) n = bytesField (leBytes n (v / 256)) 0 n from
      this, ih]
    simp [pow_succ]
    rw [mul_comm (256 ^ n) 256, Nat.mod_mul]

theorem bytesField_optBytes_one (o : Option Nat) :
    bytesField (optBytes 1 o) 0 1 = (match o with | none => 255 | some x => x % 256) := by
  cases o with
  | none => rfl
  | some x => exact (bytesField_leBytes 1 x).trans (by simp)

theorem bytesField_optBytes_two (o : Option Nat) :
    bytesField (optBytes 2 o) 0 2 = (match o with | none => 65535 | some x => x % 65536) := by
  cases o with
  | none => rfl
  | some x => exact (bytesField_leBytes 2 x).trans (by norm_num)

/-- The kind code is bits 0 to 2 of the header's first byte. -/
theorem headerByte_code (f0 f1 f2 f3 f4 : Bool) (c : Nat) (h : c < 8) :
    (headerByte c f0 f1 f2 f3 f4).toNat % 8 = c := by
  unfold headerByte flagBit
  cases f0 <;> cases f1 <;> cases f2 <;> cases f3 <;> cases f4 <;> simp <;> omega

/-- A record's slot: 32 bytes, its kind's code, and a REFUSAL's repeat count (10_formats.md 10.6). -/
theorem Record.bytes_spec (r : Record) :
    r.bytes.length = 32 ∧ r.parts.1.toNat % 8 = r.payload.code ∧
    ∀ y, r.payload = .refusal y → bytesField r.bytes 16 2 = r.count % 65536 := by
  unfold Record.bytes Record.parts
  rcases h : r.payload with x | x | x | x | x | x | x | x
  case sensor => cases x <;> simp [SensorRecord.bytes, headerByte_code, Payload.code]
  all_goals
    simp [StartRecord.bytes, DropRecord.bytes, BatteryRecord.bytes, CommitFailRecord.bytes, DieOfflineRecord.bytes,
      ProfileRecord.bytes, RefusalRecord.bytes, headerByte_code, Payload.code]
  simp [leBytes, bytesField]
  omega

theorem flatMap_bytes_length (l : List Record) : (l.flatMap Record.bytes).length = 32 * l.length := by
  induction l with
  | nil => rfl
  | cons a l ih =>
    rw [List.flatMap_cons, List.length_append, ih, (Record.bytes_spec a).1, List.length_cons]
    omega

/-- A field of slot i of the ring page is that field of the i-th record. -/
theorem bytesField_flatMap {l : List Record} {i : Nat} {r : Record} (h : l[i]? = some r) {c n : Nat}
    (hc : c + n ≤ 32) : bytesField (l.flatMap Record.bytes) (32 * i + c) n = bytesField r.bytes c n := by
  induction l generalizing i with
  | nil => simp at h
  | cons a l ih =>
    simp only [List.flatMap_cons]
    have hl := (Record.bytes_spec a).1
    cases i with
    | zero =>
      simp at h
      subst h
      rw [bytesField_append_left _ _ _ _ (by omega)]
      simp
    | succ i =>
      simp at h
      rw [bytesField_append_right _ _ _ _ (by omega), hl, show 32 * (i + 1) + c - 32 = 32 * i + c by omega]
      exact ih h

/-- A field of a page within bytes just written is that field of the bytes. -/
theorem readField_writeBytes {p : Page} (h : Page.Canonical p) (c : Nat) (bs : List Byte) (hc : c + bs.length ≤ 4224)
    {d n : Nat} (hd : c ≤ d) (hn : d + n ≤ c + bs.length) :
    readField (writeBytes p c bs) d n = bytesField bs (d - c) n := by
  induction n generalizing d with
  | zero => rfl
  | succ n ih =>
    have h1 : readCell (writeBytes p c bs) d = bs.getD (d - c) 0#8 := by
      rw [readCell_writeBytes h c bs hc, List.getD_eq_getElem?_getD]
      have : d - c < bs.length := by omega
      simp [this, hd]
    unfold readField bytesField
    rw [h1, ih (by omega) (by omega), Nat.sub_add_comm hd]

end Sys2Proof.Machine
end

