-- ==== Sys2Proof/Laws/State.lean ====
section
/-! SUPPORT. One lemma per block of State per update. -/

namespace Sys2Proof.Machine

variable (s : State)

/-! ### withTick -/

@[simp] theorem State.withTick_tick (x : Tick) : (s.withTick x).tick = x := rfl
@[simp] theorem State.withTick_pins (x : Tick) : (s.withTick x).pins = s.pins := rfl
@[simp] theorem State.withTick_front (x : Tick) : (s.withTick x).front = s.front := rfl
@[simp] theorem State.withTick_queue (x : Tick) : (s.withTick x).queue = s.queue := rfl
@[simp] theorem State.withTick_media (x : Tick) : (s.withTick x).media = s.media := rfl
@[simp] theorem State.withTick_drop (x : Tick) : (s.withTick x).drop = s.drop := rfl
@[simp] theorem State.withTick_gauge (x : Tick) : (s.withTick x).gauge = s.gauge := rfl
@[simp] theorem State.withTick_control (x : Tick) : (s.withTick x).control = s.control := rfl
@[simp] theorem State.withTick_report (x : Tick) : (s.withTick x).report = s.report := rfl
@[simp] theorem State.withTick_free (x : Tick) : (s.withTick x).free = s.free := rfl
@[simp] theorem State.withTick_pending (x : Tick) : (s.withTick x).pending = s.pending := rfl
@[simp] theorem State.withTick_self : s.withTick s.tick = s := rfl
@[simp] theorem State.withTick_twice (x y : Tick) : (s.withTick x).withTick y = s.withTick y := rfl

/-! ### withPins -/

@[simp] theorem State.withPins_tick (x : LineLevels) : (s.withPins x).tick = s.tick := rfl
@[simp] theorem State.withPins_pins (x : LineLevels) : (s.withPins x).pins = x := rfl
@[simp] theorem State.withPins_front (x : LineLevels) : (s.withPins x).front = s.front := rfl
@[simp] theorem State.withPins_queue (x : LineLevels) : (s.withPins x).queue = s.queue := rfl
@[simp] theorem State.withPins_media (x : LineLevels) : (s.withPins x).media = s.media := rfl
@[simp] theorem State.withPins_drop (x : LineLevels) : (s.withPins x).drop = s.drop := rfl
@[simp] theorem State.withPins_gauge (x : LineLevels) : (s.withPins x).gauge = s.gauge := rfl
@[simp] theorem State.withPins_control (x : LineLevels) : (s.withPins x).control = s.control := rfl
@[simp] theorem State.withPins_report (x : LineLevels) : (s.withPins x).report = s.report := rfl
@[simp] theorem State.withPins_free (x : LineLevels) : (s.withPins x).free = s.free := rfl
@[simp] theorem State.withPins_pending (x : LineLevels) : (s.withPins x).pending = s.pending := rfl
@[simp] theorem State.withPins_self : s.withPins s.pins = s := rfl
@[simp] theorem State.withPins_twice (x y : LineLevels) : (s.withPins x).withPins y = s.withPins y := rfl

/-! ### withFront -/

@[simp] theorem State.withFront_tick (x : FrontPort) : (s.withFront x).tick = s.tick := rfl
@[simp] theorem State.withFront_pins (x : FrontPort) : (s.withFront x).pins = s.pins := rfl
@[simp] theorem State.withFront_front (x : FrontPort) : (s.withFront x).front = x := rfl
@[simp] theorem State.withFront_queue (x : FrontPort) : (s.withFront x).queue = s.queue := rfl
@[simp] theorem State.withFront_media (x : FrontPort) : (s.withFront x).media = s.media := rfl
@[simp] theorem State.withFront_drop (x : FrontPort) : (s.withFront x).drop = s.drop := rfl
@[simp] theorem State.withFront_gauge (x : FrontPort) : (s.withFront x).gauge = s.gauge := rfl
@[simp] theorem State.withFront_control (x : FrontPort) : (s.withFront x).control = s.control := rfl
@[simp] theorem State.withFront_report (x : FrontPort) : (s.withFront x).report = s.report := rfl
@[simp] theorem State.withFront_free (x : FrontPort) : (s.withFront x).free = s.free := rfl
@[simp] theorem State.withFront_pending (x : FrontPort) : (s.withFront x).pending = s.pending := rfl
@[simp] theorem State.withFront_self : s.withFront s.front = s := rfl
@[simp] theorem State.withFront_twice (x y : FrontPort) : (s.withFront x).withFront y = s.withFront y := rfl

/-! ### withQueue -/

@[simp] theorem State.withQueue_tick (x : HoldQueue) : (s.withQueue x).tick = s.tick := rfl
@[simp] theorem State.withQueue_pins (x : HoldQueue) : (s.withQueue x).pins = s.pins := rfl
@[simp] theorem State.withQueue_front (x : HoldQueue) : (s.withQueue x).front = s.front := rfl
@[simp] theorem State.withQueue_queue (x : HoldQueue) : (s.withQueue x).queue = x := rfl
@[simp] theorem State.withQueue_media (x : HoldQueue) : (s.withQueue x).media = s.media := rfl
@[simp] theorem State.withQueue_drop (x : HoldQueue) : (s.withQueue x).drop = s.drop := rfl
@[simp] theorem State.withQueue_gauge (x : HoldQueue) : (s.withQueue x).gauge = s.gauge := rfl
@[simp] theorem State.withQueue_control (x : HoldQueue) : (s.withQueue x).control = s.control := rfl
@[simp] theorem State.withQueue_report (x : HoldQueue) : (s.withQueue x).report = s.report := rfl
@[simp] theorem State.withQueue_free (x : HoldQueue) : (s.withQueue x).free = s.free := rfl
@[simp] theorem State.withQueue_pending (x : HoldQueue) : (s.withQueue x).pending = s.pending := rfl
@[simp] theorem State.withQueue_self : s.withQueue s.queue = s := rfl
@[simp] theorem State.withQueue_twice (x y : HoldQueue) : (s.withQueue x).withQueue y = s.withQueue y := rfl

/-! ### withMedia -/

@[simp] theorem State.withMedia_tick (x : Scheduler) : (s.withMedia x).tick = s.tick := rfl
@[simp] theorem State.withMedia_pins (x : Scheduler) : (s.withMedia x).pins = s.pins := rfl
@[simp] theorem State.withMedia_front (x : Scheduler) : (s.withMedia x).front = s.front := rfl
@[simp] theorem State.withMedia_queue (x : Scheduler) : (s.withMedia x).queue = s.queue := rfl
@[simp] theorem State.withMedia_media (x : Scheduler) : (s.withMedia x).media = x := rfl
@[simp] theorem State.withMedia_drop (x : Scheduler) : (s.withMedia x).drop = s.drop := rfl
@[simp] theorem State.withMedia_gauge (x : Scheduler) : (s.withMedia x).gauge = s.gauge := rfl
@[simp] theorem State.withMedia_control (x : Scheduler) : (s.withMedia x).control = s.control := rfl
@[simp] theorem State.withMedia_report (x : Scheduler) : (s.withMedia x).report = s.report := rfl
@[simp] theorem State.withMedia_free (x : Scheduler) : (s.withMedia x).free = s.free := rfl
@[simp] theorem State.withMedia_pending (x : Scheduler) : (s.withMedia x).pending = s.pending := rfl
@[simp] theorem State.withMedia_self : s.withMedia s.media = s := rfl
@[simp] theorem State.withMedia_twice (x y : Scheduler) : (s.withMedia x).withMedia y = s.withMedia y := rfl

/-! ### withDrop -/

@[simp] theorem State.withDrop_tick (x : DropMonitor) : (s.withDrop x).tick = s.tick := rfl
@[simp] theorem State.withDrop_pins (x : DropMonitor) : (s.withDrop x).pins = s.pins := rfl
@[simp] theorem State.withDrop_front (x : DropMonitor) : (s.withDrop x).front = s.front := rfl
@[simp] theorem State.withDrop_queue (x : DropMonitor) : (s.withDrop x).queue = s.queue := rfl
@[simp] theorem State.withDrop_media (x : DropMonitor) : (s.withDrop x).media = s.media := rfl
@[simp] theorem State.withDrop_drop (x : DropMonitor) : (s.withDrop x).drop = x := rfl
@[simp] theorem State.withDrop_gauge (x : DropMonitor) : (s.withDrop x).gauge = s.gauge := rfl
@[simp] theorem State.withDrop_control (x : DropMonitor) : (s.withDrop x).control = s.control := rfl
@[simp] theorem State.withDrop_report (x : DropMonitor) : (s.withDrop x).report = s.report := rfl
@[simp] theorem State.withDrop_free (x : DropMonitor) : (s.withDrop x).free = s.free := rfl
@[simp] theorem State.withDrop_pending (x : DropMonitor) : (s.withDrop x).pending = s.pending := rfl
@[simp] theorem State.withDrop_self : s.withDrop s.drop = s := rfl
@[simp] theorem State.withDrop_twice (x y : DropMonitor) : (s.withDrop x).withDrop y = s.withDrop y := rfl

/-! ### withGauge -/

@[simp] theorem State.withGauge_tick (x : Gauge) : (s.withGauge x).tick = s.tick := rfl
@[simp] theorem State.withGauge_pins (x : Gauge) : (s.withGauge x).pins = s.pins := rfl
@[simp] theorem State.withGauge_front (x : Gauge) : (s.withGauge x).front = s.front := rfl
@[simp] theorem State.withGauge_queue (x : Gauge) : (s.withGauge x).queue = s.queue := rfl
@[simp] theorem State.withGauge_media (x : Gauge) : (s.withGauge x).media = s.media := rfl
@[simp] theorem State.withGauge_drop (x : Gauge) : (s.withGauge x).drop = s.drop := rfl
@[simp] theorem State.withGauge_gauge (x : Gauge) : (s.withGauge x).gauge = x := rfl
@[simp] theorem State.withGauge_control (x : Gauge) : (s.withGauge x).control = s.control := rfl
@[simp] theorem State.withGauge_report (x : Gauge) : (s.withGauge x).report = s.report := rfl
@[simp] theorem State.withGauge_free (x : Gauge) : (s.withGauge x).free = s.free := rfl
@[simp] theorem State.withGauge_pending (x : Gauge) : (s.withGauge x).pending = s.pending := rfl
@[simp] theorem State.withGauge_self : s.withGauge s.gauge = s := rfl
@[simp] theorem State.withGauge_twice (x y : Gauge) : (s.withGauge x).withGauge y = s.withGauge y := rfl

/-! ### withControl -/

@[simp] theorem State.withControl_tick (x : Controller) : (s.withControl x).tick = s.tick := rfl
@[simp] theorem State.withControl_pins (x : Controller) : (s.withControl x).pins = s.pins := rfl
@[simp] theorem State.withControl_front (x : Controller) : (s.withControl x).front = s.front := rfl
@[simp] theorem State.withControl_queue (x : Controller) : (s.withControl x).queue = s.queue := rfl
@[simp] theorem State.withControl_media (x : Controller) : (s.withControl x).media = s.media := rfl
@[simp] theorem State.withControl_drop (x : Controller) : (s.withControl x).drop = s.drop := rfl
@[simp] theorem State.withControl_gauge (x : Controller) : (s.withControl x).gauge = s.gauge := rfl
@[simp] theorem State.withControl_control (x : Controller) : (s.withControl x).control = x := rfl
@[simp] theorem State.withControl_report (x : Controller) : (s.withControl x).report = s.report := rfl
@[simp] theorem State.withControl_free (x : Controller) : (s.withControl x).free = s.free := rfl
@[simp] theorem State.withControl_pending (x : Controller) : (s.withControl x).pending = s.pending := rfl
@[simp] theorem State.withControl_self : s.withControl s.control = s := rfl
@[simp] theorem State.withControl_twice (x y : Controller) : (s.withControl x).withControl y = s.withControl y := rfl

/-! ### withReport -/

@[simp] theorem State.withReport_tick (x : ReportMemory) : (s.withReport x).tick = s.tick := rfl
@[simp] theorem State.withReport_pins (x : ReportMemory) : (s.withReport x).pins = s.pins := rfl
@[simp] theorem State.withReport_front (x : ReportMemory) : (s.withReport x).front = s.front := rfl
@[simp] theorem State.withReport_queue (x : ReportMemory) : (s.withReport x).queue = s.queue := rfl
@[simp] theorem State.withReport_media (x : ReportMemory) : (s.withReport x).media = s.media := rfl
@[simp] theorem State.withReport_drop (x : ReportMemory) : (s.withReport x).drop = s.drop := rfl
@[simp] theorem State.withReport_gauge (x : ReportMemory) : (s.withReport x).gauge = s.gauge := rfl
@[simp] theorem State.withReport_control (x : ReportMemory) : (s.withReport x).control = s.control := rfl
@[simp] theorem State.withReport_report (x : ReportMemory) : (s.withReport x).report = x := rfl
@[simp] theorem State.withReport_free (x : ReportMemory) : (s.withReport x).free = s.free := rfl
@[simp] theorem State.withReport_pending (x : ReportMemory) : (s.withReport x).pending = s.pending := rfl
@[simp] theorem State.withReport_self : s.withReport s.report = s := rfl
@[simp] theorem State.withReport_twice (x y : ReportMemory) : (s.withReport x).withReport y = s.withReport y := rfl

/-! ### withFree -/

@[simp] theorem State.withFree_tick (x : Nat) : (s.withFree x).tick = s.tick := rfl
@[simp] theorem State.withFree_pins (x : Nat) : (s.withFree x).pins = s.pins := rfl
@[simp] theorem State.withFree_front (x : Nat) : (s.withFree x).front = s.front := rfl
@[simp] theorem State.withFree_queue (x : Nat) : (s.withFree x).queue = s.queue := rfl
@[simp] theorem State.withFree_media (x : Nat) : (s.withFree x).media = s.media := rfl
@[simp] theorem State.withFree_drop (x : Nat) : (s.withFree x).drop = s.drop := rfl
@[simp] theorem State.withFree_gauge (x : Nat) : (s.withFree x).gauge = s.gauge := rfl
@[simp] theorem State.withFree_control (x : Nat) : (s.withFree x).control = s.control := rfl
@[simp] theorem State.withFree_report (x : Nat) : (s.withFree x).report = s.report := rfl
@[simp] theorem State.withFree_free (x : Nat) : (s.withFree x).free = x := rfl
@[simp] theorem State.withFree_pending (x : Nat) : (s.withFree x).pending = s.pending := rfl
@[simp] theorem State.withFree_self : s.withFree s.free = s := rfl
@[simp] theorem State.withFree_twice (x y : Nat) : (s.withFree x).withFree y = s.withFree y := rfl

/-! ### withPending -/

@[simp] theorem State.withPending_tick (x : List Instr) : (s.withPending x).tick = s.tick := rfl
@[simp] theorem State.withPending_pins (x : List Instr) : (s.withPending x).pins = s.pins := rfl
@[simp] theorem State.withPending_front (x : List Instr) : (s.withPending x).front = s.front := rfl
@[simp] theorem State.withPending_queue (x : List Instr) : (s.withPending x).queue = s.queue := rfl
@[simp] theorem State.withPending_media (x : List Instr) : (s.withPending x).media = s.media := rfl
@[simp] theorem State.withPending_drop (x : List Instr) : (s.withPending x).drop = s.drop := rfl
@[simp] theorem State.withPending_gauge (x : List Instr) : (s.withPending x).gauge = s.gauge := rfl
@[simp] theorem State.withPending_control (x : List Instr) : (s.withPending x).control = s.control := rfl
@[simp] theorem State.withPending_report (x : List Instr) : (s.withPending x).report = s.report := rfl
@[simp] theorem State.withPending_free (x : List Instr) : (s.withPending x).free = s.free := rfl
@[simp] theorem State.withPending_pending (x : List Instr) : (s.withPending x).pending = x := rfl
@[simp] theorem State.withPending_self : s.withPending s.pending = s := rfl
@[simp] theorem State.withPending_twice (x y : List Instr) : (s.withPending x).withPending y = s.withPending y := rfl

/-! ### withFrontState -/

@[simp] theorem State.withFrontState_tick (x : FrontState) : (s.withFrontState x).tick = s.tick := rfl
@[simp] theorem State.withFrontState_pins (x : FrontState) : (s.withFrontState x).pins = s.pins := rfl
@[simp] theorem State.withFrontState_front (x : FrontState) : (s.withFrontState x).front = { s.front with state := x } := rfl
@[simp] theorem State.withFrontState_queue (x : FrontState) : (s.withFrontState x).queue = s.queue := rfl
@[simp] theorem State.withFrontState_media (x : FrontState) : (s.withFrontState x).media = s.media := rfl
@[simp] theorem State.withFrontState_drop (x : FrontState) : (s.withFrontState x).drop = s.drop := rfl
@[simp] theorem State.withFrontState_gauge (x : FrontState) : (s.withFrontState x).gauge = s.gauge := rfl
@[simp] theorem State.withFrontState_control (x : FrontState) : (s.withFrontState x).control = s.control := rfl
@[simp] theorem State.withFrontState_report (x : FrontState) : (s.withFrontState x).report = s.report := rfl
@[simp] theorem State.withFrontState_free (x : FrontState) : (s.withFrontState x).free = s.free := rfl
@[simp] theorem State.withFrontState_pending (x : FrontState) : (s.withFrontState x).pending = s.pending := rfl

/-! ### withSequence -/

@[simp] theorem State.withSequence_tick (x : Sequence) : (s.withSequence x).tick = s.tick := rfl
@[simp] theorem State.withSequence_pins (x : Sequence) : (s.withSequence x).pins = s.pins := rfl
@[simp] theorem State.withSequence_front (x : Sequence) : (s.withSequence x).front = s.front := rfl
@[simp] theorem State.withSequence_queue (x : Sequence) : (s.withSequence x).queue = s.queue := rfl
@[simp] theorem State.withSequence_media (x : Sequence) : (s.withSequence x).media = s.media := rfl
@[simp] theorem State.withSequence_drop (x : Sequence) : (s.withSequence x).drop = s.drop := rfl
@[simp] theorem State.withSequence_gauge (x : Sequence) : (s.withSequence x).gauge = s.gauge := rfl
@[simp] theorem State.withSequence_control (x : Sequence) : (s.withSequence x).control = { s.control with sequence := x } := rfl
@[simp] theorem State.withSequence_report (x : Sequence) : (s.withSequence x).report = s.report := rfl
@[simp] theorem State.withSequence_free (x : Sequence) : (s.withSequence x).free = s.free := rfl
@[simp] theorem State.withSequence_pending (x : Sequence) : (s.withSequence x).pending = s.pending := rfl

/-! ### withServiceState -/

@[simp] theorem State.withServiceState_tick (x : ServiceState) : (s.withServiceState x).tick = s.tick := rfl
@[simp] theorem State.withServiceState_pins (x : ServiceState) : (s.withServiceState x).pins = s.pins := rfl
@[simp] theorem State.withServiceState_front (x : ServiceState) : (s.withServiceState x).front = s.front := rfl
@[simp] theorem State.withServiceState_queue (x : ServiceState) : (s.withServiceState x).queue = s.queue := rfl
@[simp] theorem State.withServiceState_media (x : ServiceState) : (s.withServiceState x).media = s.media := rfl
@[simp] theorem State.withServiceState_drop (x : ServiceState) : (s.withServiceState x).drop = s.drop := rfl
@[simp] theorem State.withServiceState_gauge (x : ServiceState) : (s.withServiceState x).gauge = s.gauge := rfl
@[simp] theorem State.withServiceState_control (x : ServiceState) : (s.withServiceState x).control = { s.control with state := x } := rfl
@[simp] theorem State.withServiceState_report (x : ServiceState) : (s.withServiceState x).report = s.report := rfl
@[simp] theorem State.withServiceState_free (x : ServiceState) : (s.withServiceState x).free = s.free := rfl
@[simp] theorem State.withServiceState_pending (x : ServiceState) : (s.withServiceState x).pending = s.pending := rfl

/-! ### withDie -/

@[simp] theorem State.withDie_tick (d : Die) (x : DieState) :
    (s.withDie d x).tick = s.tick := rfl
@[simp] theorem State.withDie_pins (d : Die) (x : DieState) :
    (s.withDie d x).pins = s.pins := rfl
@[simp] theorem State.withDie_front (d : Die) (x : DieState) :
    (s.withDie d x).front = s.front := rfl
@[simp] theorem State.withDie_queue (d : Die) (x : DieState) :
    (s.withDie d x).queue = s.queue := rfl
@[simp] theorem State.withDie_media (d : Die) (x : DieState) :
    (s.withDie d x).media = { s.media with dies := s.media.dies.set d { s.media.dies.get d with state := x } } := rfl
@[simp] theorem State.withDie_drop (d : Die) (x : DieState) :
    (s.withDie d x).drop = s.drop := rfl
@[simp] theorem State.withDie_gauge (d : Die) (x : DieState) :
    (s.withDie d x).gauge = s.gauge := rfl
@[simp] theorem State.withDie_control (d : Die) (x : DieState) :
    (s.withDie d x).control = s.control := rfl
@[simp] theorem State.withDie_report (d : Die) (x : DieState) :
    (s.withDie d x).report = s.report := rfl
@[simp] theorem State.withDie_free (d : Die) (x : DieState) :
    (s.withDie d x).free = s.free := rfl
@[simp] theorem State.withDie_pending (d : Die) (x : DieState) :
    (s.withDie d x).pending = s.pending := rfl

/-! ### withPatience -/

@[simp] theorem State.withPatience_tick (d : Die) (x : Nat) :
    (s.withPatience d x).tick = s.tick := rfl
@[simp] theorem State.withPatience_pins (d : Die) (x : Nat) :
    (s.withPatience d x).pins = s.pins := rfl
@[simp] theorem State.withPatience_front (d : Die) (x : Nat) :
    (s.withPatience d x).front = s.front := rfl
@[simp] theorem State.withPatience_queue (d : Die) (x : Nat) :
    (s.withPatience d x).queue = s.queue := rfl
@[simp] theorem State.withPatience_media (d : Die) (x : Nat) :
    (s.withPatience d x).media = { s.media with dies := s.media.dies.set d { s.media.dies.get d with patience := x } } := rfl
@[simp] theorem State.withPatience_drop (d : Die) (x : Nat) :
    (s.withPatience d x).drop = s.drop := rfl
@[simp] theorem State.withPatience_gauge (d : Die) (x : Nat) :
    (s.withPatience d x).gauge = s.gauge := rfl
@[simp] theorem State.withPatience_control (d : Die) (x : Nat) :
    (s.withPatience d x).control = s.control := rfl
@[simp] theorem State.withPatience_report (d : Die) (x : Nat) :
    (s.withPatience d x).report = s.report := rfl
@[simp] theorem State.withPatience_free (d : Die) (x : Nat) :
    (s.withPatience d x).free = s.free := rfl
@[simp] theorem State.withPatience_pending (d : Die) (x : Nat) :
    (s.withPatience d x).pending = s.pending := rfl

/-! ### Dies -/

@[simp] theorem PerDie.get_set_self {α : Type} (v : PerDie α) (d : Die) (x : α) : (v.set d x).get d = x := by
  fin_cases d <;> rfl

theorem PerDie.get_set_ne {α : Type} (v : PerDie α) {d e : Die} (h : d ≠ e) (x : α) : (v.set e x).get d = v.get d := by
  fin_cases d <;> fin_cases e <;> first | rfl | exact absurd rfl h

theorem PerDie.get_set {α : Type} (v : PerDie α) (d e : Die) (x : α) :
    (v.set e x).get d = if d = e then x else v.get d := by
  by_cases h : d = e
  · subst h; simp
  · rw [if_neg h, PerDie.get_set_ne v h]

@[simp] theorem PerDie.get_map {α β : Type} (f : α → β) (v : PerDie α) (d : Die) : (v.map f).get d = f (v.get d) := by
  fin_cases d <;> rfl

@[simp] theorem State.withDie_die_self (d : Die) (x : DieState) : (s.withDie d x).die d = x := by
  simp [State.die]

theorem State.withDie_die (d e : Die) (x : DieState) :
    (s.withDie e x).die d = if d = e then x else s.die d := by
  by_cases h : d = e
  · subst h; simp
  · simp [State.die, PerDie.get_set_ne _ h, h]

@[simp] theorem State.withPatience_die (d e : Die) (n : Nat) : (s.withPatience e n).die d = s.die d := by
  by_cases h : d = e
  · subst h; simp [State.die]
  · simp [State.die, PerDie.get_set_ne _ h]

@[simp] theorem State.withTick_die (x : Tick) (d : Die) : (s.withTick x).die d = s.die d := rfl
@[simp] theorem State.withPins_die (x : LineLevels) (d : Die) : (s.withPins x).die d = s.die d := rfl
@[simp] theorem State.withFront_die (x : FrontPort) (d : Die) : (s.withFront x).die d = s.die d := rfl
@[simp] theorem State.withQueue_die (x : HoldQueue) (d : Die) : (s.withQueue x).die d = s.die d := rfl
@[simp] theorem State.withDrop_die (x : DropMonitor) (d : Die) : (s.withDrop x).die d = s.die d := rfl
@[simp] theorem State.withGauge_die (x : Gauge) (d : Die) : (s.withGauge x).die d = s.die d := rfl
@[simp] theorem State.withControl_die (x : Controller) (d : Die) : (s.withControl x).die d = s.die d := rfl
@[simp] theorem State.withReport_die (x : ReportMemory) (d : Die) : (s.withReport x).die d = s.die d := rfl
@[simp] theorem State.withFree_die (x : Nat) (d : Die) : (s.withFree x).die d = s.die d := rfl
@[simp] theorem State.withPending_die (x : List Instr) (d : Die) : (s.withPending x).die d = s.die d := rfl
@[simp] theorem State.withFrontState_die (x : FrontState) (d : Die) : (s.withFrontState x).die d = s.die d := rfl
@[simp] theorem State.withSequence_die (x : Sequence) (d : Die) : (s.withSequence x).die d = s.die d := rfl
@[simp] theorem State.withServiceState_die (x : ServiceState) (d : Die) : (s.withServiceState x).die d = s.die d := rfl

theorem mem_allDies (d : Die) : d ∈ allDies := by fin_cases d <;> decide

end Sys2Proof.Machine
end

