-- ==== Sys2Proof/Laws/Frame.lean ====
section
/-! SUPPORT. What each shared operation leaves unchanged: one lemma per operation, over the blocks it does not touch. -/

namespace Sys2Proof.Machine

variable (s : State)

@[simp] theorem State.record_frame (p : Payload) :
    (s.record p).tick = s.tick ∧ (s.record p).pins = s.pins ∧ (s.record p).front = s.front ∧
    (s.record p).queue = s.queue ∧ (s.record p).media = s.media ∧ (s.record p).drop = s.drop ∧
    (s.record p).gauge = s.gauge ∧ (s.record p).control = s.control ∧ (s.record p).free = s.free ∧
    (s.record p).pending = s.pending := by
  simp [State.record]

@[simp] theorem State.evaluateAttn_frame :
    s.evaluateAttn.tick = s.tick ∧ s.evaluateAttn.pins = s.pins ∧ s.evaluateAttn.front = s.front ∧
    s.evaluateAttn.queue = s.queue ∧ s.evaluateAttn.media = s.media ∧ s.evaluateAttn.drop = s.drop ∧
    s.evaluateAttn.gauge = s.gauge ∧ s.evaluateAttn.control = s.control ∧ s.evaluateAttn.free = s.free ∧
    s.evaluateAttn.pending = s.pending := by
  simp [State.evaluateAttn]

@[simp] theorem State.reportDrops_frame :
    s.reportDrops.tick = s.tick ∧ s.reportDrops.pins = s.pins ∧ s.reportDrops.front = s.front ∧
    s.reportDrops.queue = s.queue ∧ s.reportDrops.media = s.media ∧ s.reportDrops.gauge = s.gauge ∧
    s.reportDrops.control = s.control ∧ s.reportDrops.free = s.free ∧ s.reportDrops.pending = s.pending := by
  unfold State.reportDrops; repeat' (first | split | dsimp only)
  all_goals simp

@[simp] theorem State.dropAccepted_frame (tag : Option Tick) (posted : Bool) :
    (s.dropAccepted tag posted).tick = s.tick ∧ (s.dropAccepted tag posted).pins = s.pins ∧
    (s.dropAccepted tag posted).front = s.front ∧ (s.dropAccepted tag posted).queue = s.queue ∧
    (s.dropAccepted tag posted).media = s.media ∧ (s.dropAccepted tag posted).gauge = s.gauge ∧
    (s.dropAccepted tag posted).control = s.control ∧ (s.dropAccepted tag posted).report = s.report ∧
    (s.dropAccepted tag posted).free = s.free ∧ (s.dropAccepted tag posted).pending = s.pending := by
  unfold State.dropAccepted; repeat' (first | split | dsimp only)
  all_goals simp

@[simp] theorem State.dropDeparted_frame (tag : Option Tick) (way : Departure) :
    (s.dropDeparted tag way).tick = s.tick ∧ (s.dropDeparted tag way).pins = s.pins ∧
    (s.dropDeparted tag way).front = s.front ∧ (s.dropDeparted tag way).queue = s.queue ∧
    (s.dropDeparted tag way).media = s.media ∧ (s.dropDeparted tag way).gauge = s.gauge ∧
    (s.dropDeparted tag way).control = s.control ∧ (s.dropDeparted tag way).free = s.free ∧
    (s.dropDeparted tag way).pending = s.pending := by
  unfold State.dropDeparted; repeat' (first | split | dsimp only)
  all_goals simp

@[simp] theorem State.batteryEdge_frame (e : HeldEdge) :
    (s.batteryEdge e).tick = s.tick ∧ (s.batteryEdge e).pins = s.pins ∧ (s.batteryEdge e).front = s.front ∧
    (s.batteryEdge e).queue = s.queue ∧ (s.batteryEdge e).media = s.media ∧ (s.batteryEdge e).drop = s.drop ∧
    (s.batteryEdge e).control = s.control ∧ (s.batteryEdge e).free = s.free ∧ (s.batteryEdge e).pending = s.pending := by
  unfold State.batteryEdge; repeat' (first | split | dsimp only)
  all_goals simp

@[simp] theorem State.takeBatteryEdge_frame (e : HeldEdge) :
    (s.takeBatteryEdge e).tick = s.tick ∧ (s.takeBatteryEdge e).pins = s.pins ∧
    (s.takeBatteryEdge e).front = s.front ∧ (s.takeBatteryEdge e).queue = s.queue ∧
    (s.takeBatteryEdge e).media = s.media ∧ (s.takeBatteryEdge e).drop = s.drop ∧
    (s.takeBatteryEdge e).control = s.control ∧ (s.takeBatteryEdge e).free = s.free ∧
    (s.takeBatteryEdge e).pending = s.pending := by
  unfold State.takeBatteryEdge; repeat' (first | split | dsimp only)
  all_goals simp

@[simp] theorem foldl_batteryEdge_frame (l : List HeldEdge) (s : State) :
    (l.foldl State.batteryEdge s).tick = s.tick ∧ (l.foldl State.batteryEdge s).pins = s.pins ∧
    (l.foldl State.batteryEdge s).front = s.front ∧ (l.foldl State.batteryEdge s).queue = s.queue ∧
    (l.foldl State.batteryEdge s).media = s.media ∧ (l.foldl State.batteryEdge s).drop = s.drop ∧
    (l.foldl State.batteryEdge s).control = s.control ∧ (l.foldl State.batteryEdge s).free = s.free ∧
    (l.foldl State.batteryEdge s).pending = s.pending := by
  induction l generalizing s with
  | nil => simp
  | cons e l ih => simp [ih]

@[simp] theorem State.endGaugeHold_frame :
    s.endGaugeHold.tick = s.tick ∧ s.endGaugeHold.pins = s.pins ∧ s.endGaugeHold.front = s.front ∧
    s.endGaugeHold.queue = s.queue ∧ s.endGaugeHold.media = s.media ∧ s.endGaugeHold.drop = s.drop ∧
    s.endGaugeHold.control = s.control ∧ s.endGaugeHold.free = s.free ∧ s.endGaugeHold.pending = s.pending := by
  unfold State.endGaugeHold; repeat' (first | split | dsimp only)
  all_goals simp

@[simp] theorem State.rejectApply_frame (src : ApplySource) (page : Nat) (why : RejectReason) (c : Bool) (n : Option Nat) :
    (s.rejectApply src page why c n).tick = s.tick ∧ (s.rejectApply src page why c n).pins = s.pins ∧
    (s.rejectApply src page why c n).front = s.front ∧ (s.rejectApply src page why c n).queue = s.queue ∧
    (s.rejectApply src page why c n).media = s.media ∧ (s.rejectApply src page why c n).drop = s.drop ∧
    (s.rejectApply src page why c n).gauge = s.gauge ∧ (s.rejectApply src page why c n).control = s.control ∧
    (s.rejectApply src page why c n).free = s.free ∧ (s.rejectApply src page why c n).pending = s.pending := by
  simp [State.rejectApply]

@[simp] theorem State.recordApply_frame (src : ApplySource) (page g : Nat) (r : List Nat) (c : Bool) (n : Option Nat) :
    (s.recordApply src page g r c n).tick = s.tick ∧ (s.recordApply src page g r c n).pins = s.pins ∧
    (s.recordApply src page g r c n).front = s.front ∧ (s.recordApply src page g r c n).queue = s.queue ∧
    (s.recordApply src page g r c n).media = s.media ∧ (s.recordApply src page g r c n).drop = s.drop ∧
    (s.recordApply src page g r c n).gauge = s.gauge ∧ (s.recordApply src page g r c n).control = s.control ∧
    (s.recordApply src page g r c n).free = s.free ∧ (s.recordApply src page g r c n).pending = s.pending := by
  simp [State.recordApply]

@[simp] theorem State.recordNoPage_frame (src : ApplySource) (o : ApplyOutcome) (n : Option Nat) :
    (s.recordNoPage src o n).tick = s.tick ∧ (s.recordNoPage src o n).pins = s.pins ∧
    (s.recordNoPage src o n).front = s.front ∧ (s.recordNoPage src o n).queue = s.queue ∧
    (s.recordNoPage src o n).media = s.media ∧ (s.recordNoPage src o n).drop = s.drop ∧
    (s.recordNoPage src o n).gauge = s.gauge ∧ (s.recordNoPage src o n).control = s.control ∧
    (s.recordNoPage src o n).free = s.free ∧ (s.recordNoPage src o n).pending = s.pending := by
  simp [State.recordNoPage]

@[simp] theorem State.putLive_frame (v : Settings) :
    (s.putLive v).1.tick = s.tick ∧ (s.putLive v).1.pins = s.pins ∧ (s.putLive v).1.front = s.front ∧
    (s.putLive v).1.queue = s.queue ∧ (s.putLive v).1.media = s.media ∧ (s.putLive v).1.drop = s.drop ∧
    (s.putLive v).1.gauge = s.gauge ∧ (s.putLive v).1.report = s.report ∧ (s.putLive v).1.free = s.free ∧
    (s.putLive v).1.pending = s.pending := by
  simp [State.putLive]

@[simp] theorem State.laterApply_frame (p : ProfileImage) (page : Option Nat) :
    (s.laterApply p page).1.tick = s.tick ∧ (s.laterApply p page).1.pins = s.pins ∧
    (s.laterApply p page).1.front = s.front ∧ (s.laterApply p page).1.queue = s.queue ∧
    (s.laterApply p page).1.media = s.media ∧ (s.laterApply p page).1.drop = s.drop ∧
    (s.laterApply p page).1.free = s.free ∧ (s.laterApply p page).1.pending = s.pending := by
  simp [State.laterApply]

@[simp] theorem State.wholeApply_frame (p : ProfileImage) (page : Option Nat) (g : Gauge) :
    (s.wholeApply p page g).1.tick = s.tick ∧ (s.wholeApply p page g).1.pins = s.pins ∧
    (s.wholeApply p page g).1.front = s.front ∧ (s.wholeApply p page g).1.queue = s.queue ∧
    (s.wholeApply p page g).1.media = s.media ∧ (s.wholeApply p page g).1.drop = s.drop ∧
    (s.wholeApply p page g).1.free = s.free ∧ (s.wholeApply p page g).1.pending = s.pending := by
  simp [State.wholeApply]

@[simp] theorem State.startUpApply_frame (p : ProfileImage) (page : Option Nat) :
    (s.startUpApply p page).1.tick = s.tick ∧ (s.startUpApply p page).1.pins = s.pins ∧
    (s.startUpApply p page).1.front = s.front ∧ (s.startUpApply p page).1.queue = s.queue ∧
    (s.startUpApply p page).1.media = s.media ∧ (s.startUpApply p page).1.drop = s.drop ∧
    (s.startUpApply p page).1.free = s.free ∧ (s.startUpApply p page).1.pending = s.pending := by
  simp [State.startUpApply]

@[simp] theorem State.recoveryApply_frame :
    s.recoveryApply.tick = s.tick ∧ s.recoveryApply.pins = s.pins ∧ s.recoveryApply.front = s.front ∧
    s.recoveryApply.queue = s.queue ∧ s.recoveryApply.media = s.media ∧ s.recoveryApply.drop = s.drop ∧
    s.recoveryApply.free = s.free ∧ s.recoveryApply.pending = s.pending := by
  simp [State.recoveryApply]

@[simp] theorem State.serviceApply_frame (image : Page) (page : Nat) :
    (s.serviceApply image page).tick = s.tick ∧ (s.serviceApply image page).pins = s.pins ∧
    (s.serviceApply image page).front = s.front ∧ (s.serviceApply image page).queue = s.queue ∧
    (s.serviceApply image page).media = s.media ∧ (s.serviceApply image page).drop = s.drop ∧
    (s.serviceApply image page).free = s.free ∧ (s.serviceApply image page).pending = s.pending := by
  unfold State.serviceApply; repeat' (first | split | dsimp only)
  all_goals simp

@[simp] theorem State.applyAtStartUp_frame (r : ScanResult) :
    (s.applyAtStartUp r).tick = s.tick ∧ (s.applyAtStartUp r).pins = s.pins ∧
    (s.applyAtStartUp r).front = s.front ∧ (s.applyAtStartUp r).queue = s.queue ∧
    (s.applyAtStartUp r).media = s.media ∧ (s.applyAtStartUp r).drop = s.drop ∧
    (s.applyAtStartUp r).free = s.free ∧ (s.applyAtStartUp r).pending = s.pending := by
  unfold State.applyAtStartUp; repeat' (first | split | dsimp only)
  all_goals simp

@[simp] theorem State.applyAtLineReset_frame (r : ScanResult) :
    (s.applyAtLineReset r).tick = s.tick ∧ (s.applyAtLineReset r).pins = s.pins ∧
    (s.applyAtLineReset r).front = s.front ∧ (s.applyAtLineReset r).queue = s.queue ∧
    (s.applyAtLineReset r).media = s.media ∧ (s.applyAtLineReset r).drop = s.drop ∧
    (s.applyAtLineReset r).free = s.free ∧ (s.applyAtLineReset r).pending = s.pending := by
  unfold State.applyAtLineReset; repeat' (first | split | dsimp only)
  all_goals simp

@[simp] theorem State.withdraw_frame :
    s.withdraw.tick = s.tick ∧ s.withdraw.pins = s.pins ∧ s.withdraw.front = s.front ∧ s.withdraw.media = s.media ∧
    s.withdraw.gauge = s.gauge ∧ s.withdraw.control = s.control ∧ s.withdraw.free = s.free ∧
    s.withdraw.pending = s.pending := by
  unfold State.withdraw; repeat' (first | split | dsimp only)
  all_goals simp

@[simp] theorem State.addFailedRow_frame (r : FailedRow) :
    (s.addFailedRow r).1.tick = s.tick ∧ (s.addFailedRow r).1.pins = s.pins ∧
    (s.addFailedRow r).1.front = s.front ∧ (s.addFailedRow r).1.media = s.media ∧
    (s.addFailedRow r).1.drop = s.drop ∧ (s.addFailedRow r).1.gauge = s.gauge ∧
    (s.addFailedRow r).1.report = s.report ∧ (s.addFailedRow r).1.free = s.free ∧
    (s.addFailedRow r).1.pending = s.pending := by
  simp [State.addFailedRow]

@[simp] theorem State.reportUnwritten_frame (e : Entry) (c : CommitFailCause) (w : Departure) :
    (s.reportUnwritten e c w).tick = s.tick ∧ (s.reportUnwritten e c w).pins = s.pins ∧
    (s.reportUnwritten e c w).front = s.front ∧ (s.reportUnwritten e c w).media = s.media ∧
    (s.reportUnwritten e c w).gauge = s.gauge ∧ (s.reportUnwritten e c w).free = s.free ∧
    (s.reportUnwritten e c w).pending = s.pending := by
  simp [State.reportUnwritten]

@[simp] theorem foldl_reportUnwritten_frame (c : CommitFailCause) (w : Departure) (l : List Entry) (s : State) :
    (l.foldl (fun acc e => acc.reportUnwritten e c w) s).tick = s.tick ∧
    (l.foldl (fun acc e => acc.reportUnwritten e c w) s).pins = s.pins ∧
    (l.foldl (fun acc e => acc.reportUnwritten e c w) s).front = s.front ∧
    (l.foldl (fun acc e => acc.reportUnwritten e c w) s).media = s.media ∧
    (l.foldl (fun acc e => acc.reportUnwritten e c w) s).gauge = s.gauge ∧
    (l.foldl (fun acc e => acc.reportUnwritten e c w) s).free = s.free ∧
    (l.foldl (fun acc e => acc.reportUnwritten e c w) s).pending = s.pending := by
  induction l generalizing s with
  | nil => simp
  | cons e l ih => simp [ih]

@[simp] theorem State.loseEntries_frame :
    s.loseEntries.tick = s.tick ∧ s.loseEntries.pins = s.pins ∧ s.loseEntries.front = s.front ∧
    s.loseEntries.media = s.media ∧ s.loseEntries.gauge = s.gauge ∧ s.loseEntries.free = s.free ∧
    s.loseEntries.pending = s.pending := by
  simp [State.loseEntries]

@[simp] theorem State.request_frame (op : ServiceOp) :
    (s.request op).tick = s.tick ∧ (s.request op).pins = s.pins ∧ (s.request op).front = s.front ∧
    (s.request op).queue = s.queue ∧ (s.request op).drop = s.drop ∧ (s.request op).gauge = s.gauge ∧
    (s.request op).control = s.control ∧ (s.request op).report = s.report ∧ (s.request op).free = s.free ∧
    (s.request op).pending = s.pending := by
  simp [State.request]

@[simp] theorem State.loseNote_frame :
    s.loseNote.tick = s.tick ∧ s.loseNote.pins = s.pins ∧ s.loseNote.front = s.front ∧ s.loseNote.queue = s.queue ∧
    s.loseNote.media = s.media ∧ s.loseNote.drop = s.drop ∧ s.loseNote.gauge = s.gauge ∧
    s.loseNote.report = s.report ∧ s.loseNote.free = s.free ∧ s.loseNote.pending = s.pending := by
  simp [State.loseNote]

@[simp] theorem State.useNotePage_frame :
    s.useNotePage.tick = s.tick ∧ s.useNotePage.pins = s.pins ∧ s.useNotePage.front = s.front ∧
    s.useNotePage.queue = s.queue ∧ s.useNotePage.media = s.media ∧ s.useNotePage.drop = s.drop ∧
    s.useNotePage.gauge = s.gauge ∧ s.useNotePage.report = s.report ∧ s.useNotePage.free = s.free ∧
    s.useNotePage.pending = s.pending := by
  simp [State.useNotePage]

@[simp] theorem State.openNote_frame (o : Opening) :
    (s.openNote o).tick = s.tick ∧ (s.openNote o).pins = s.pins ∧ (s.openNote o).front = s.front ∧
    (s.openNote o).queue = s.queue ∧ (s.openNote o).drop = s.drop ∧ (s.openNote o).gauge = s.gauge ∧
    (s.openNote o).report = s.report ∧ (s.openNote o).free = s.free ∧ (s.openNote o).pending = s.pending := by
  unfold State.openNote; repeat' (first | split | dsimp only)
  all_goals simp

@[simp] theorem State.startRecord_frame (i : StartInfo) :
    (s.startRecord i).tick = s.tick ∧ (s.startRecord i).pins = s.pins ∧ (s.startRecord i).front = s.front ∧
    (s.startRecord i).queue = s.queue ∧ (s.startRecord i).media = s.media ∧ (s.startRecord i).drop = s.drop ∧
    (s.startRecord i).gauge = s.gauge ∧ (s.startRecord i).control = s.control ∧ (s.startRecord i).free = s.free ∧
    (s.startRecord i).pending = s.pending := by
  simp [State.startRecord]

@[simp] theorem State.dipRecord_frame :
    s.dipRecord.tick = s.tick ∧ s.dipRecord.pins = s.pins ∧ s.dipRecord.front = s.front ∧
    s.dipRecord.queue = s.queue ∧ s.dipRecord.media = s.media ∧ s.dipRecord.drop = s.drop ∧
    s.dipRecord.gauge = s.gauge ∧ s.dipRecord.control = s.control ∧ s.dipRecord.free = s.free ∧
    s.dipRecord.pending = s.pending := by
  simp [State.dipRecord]

@[simp] theorem State.lineRecord_frame :
    s.lineRecord.tick = s.tick ∧ s.lineRecord.pins = s.pins ∧ s.lineRecord.front = s.front ∧
    s.lineRecord.queue = s.queue ∧ s.lineRecord.media = s.media ∧ s.lineRecord.drop = s.drop ∧
    s.lineRecord.gauge = s.gauge ∧ s.lineRecord.control = s.control ∧ s.lineRecord.free = s.free ∧
    s.lineRecord.pending = s.pending := by
  simp [State.lineRecord]

@[simp] theorem State.enterService_frame :
    s.enterService.tick = s.tick ∧ s.enterService.pins = s.pins ∧ s.enterService.front = s.front ∧
    s.enterService.queue = s.queue ∧ s.enterService.media = s.media ∧ s.enterService.drop = s.drop ∧
    s.enterService.gauge = s.gauge ∧ s.enterService.report = s.report ∧ s.enterService.free = s.free ∧
    s.enterService.pending = s.pending := by
  simp [State.enterService]

@[simp] theorem State.finishOpening_frame (o : Opening) :
    (s.finishOpening o).tick = s.tick ∧ (s.finishOpening o).pins = s.pins ∧ (s.finishOpening o).queue = s.queue ∧
    (s.finishOpening o).media = s.media ∧ (s.finishOpening o).drop = s.drop ∧ (s.finishOpening o).gauge = s.gauge ∧
    (s.finishOpening o).free = s.free ∧ (s.finishOpening o).pending = s.pending := by
  unfold State.finishOpening; repeat' (first | split | dsimp only)
  all_goals simp

@[simp] theorem State.openOrFinish_frame (o : Opening) :
    (s.openOrFinish o).tick = s.tick ∧ (s.openOrFinish o).pins = s.pins ∧ (s.openOrFinish o).queue = s.queue ∧
    (s.openOrFinish o).drop = s.drop ∧ (s.openOrFinish o).gauge = s.gauge ∧ (s.openOrFinish o).free = s.free ∧
    (s.openOrFinish o).pending = s.pending := by
  unfold State.openOrFinish; repeat' (first | split | dsimp only)
  all_goals simp

@[simp] theorem State.loadCounters_frame (a b : Tick) :
    (s.loadCounters a b).tick = s.tick ∧ (s.loadCounters a b).pins = s.pins ∧
    (s.loadCounters a b).front = s.front ∧ (s.loadCounters a b).queue = s.queue ∧
    (s.loadCounters a b).media = s.media ∧ (s.loadCounters a b).gauge = s.gauge ∧
    (s.loadCounters a b).control = s.control ∧ (s.loadCounters a b).free = s.free ∧
    (s.loadCounters a b).pending = s.pending := by
  simp [State.loadCounters]

@[simp] theorem State.loadRows_frame (rows : List FailedRow) :
    (s.loadRows rows).tick = s.tick ∧ (s.loadRows rows).pins = s.pins ∧ (s.loadRows rows).front = s.front ∧
    (s.loadRows rows).media = s.media ∧ (s.loadRows rows).drop = s.drop ∧ (s.loadRows rows).gauge = s.gauge ∧
    (s.loadRows rows).report = s.report ∧ (s.loadRows rows).free = s.free ∧ (s.loadRows rows).pending = s.pending := by
  unfold State.loadRows
  induction rows generalizing s with
  | nil => simp
  | cons r rows ih => simp [ih]

@[simp] theorem State.cleanStart_frame (page : Nat) (image : Page) :
    (s.cleanStart page image).tick = s.tick ∧ (s.cleanStart page image).pins = s.pins ∧
    (s.cleanStart page image).free = s.free ∧ (s.cleanStart page image).pending = s.pending := by
  simp [State.cleanStart]

@[simp] theorem State.uncleanStart_frame (page : Nat) (image : Page) :
    (s.uncleanStart page image).tick = s.tick ∧ (s.uncleanStart page image).pins = s.pins ∧
    (s.uncleanStart page image).queue = s.queue ∧ (s.uncleanStart page image).free = s.free ∧
    (s.uncleanStart page image).pending = s.pending := by
  simp [State.uncleanStart]

@[simp] theorem State.noNoteStart_frame :
    s.noNoteStart.tick = s.tick ∧ s.noNoteStart.pins = s.pins ∧ s.noNoteStart.queue = s.queue ∧
    s.noNoteStart.free = s.free ∧ s.noNoteStart.pending = s.pending := by
  simp [State.noNoteStart]

@[simp] theorem State.settleNote_frame (best : Option (Nat × Page)) :
    (s.settleNote best).tick = s.tick ∧ (s.settleNote best).pins = s.pins ∧ (s.settleNote best).free = s.free ∧
    (s.settleNote best).pending = s.pending := by
  unfold State.settleNote; repeat' (first | split | dsimp only)
  all_goals simp

@[simp] theorem State.beginNoteScan_frame :
    s.beginNoteScan.tick = s.tick ∧ s.beginNoteScan.pins = s.pins ∧ s.beginNoteScan.free = s.free ∧
    s.beginNoteScan.pending = s.pending := by
  unfold State.beginNoteScan; repeat' (first | split | dsimp only)
  all_goals simp

@[simp] theorem State.noteScanned_frame (page : Nat) (best : Option (Nat × Page)) (data : Page) :
    (s.noteScanned page best data).tick = s.tick ∧ (s.noteScanned page best data).pins = s.pins ∧
    (s.noteScanned page best data).free = s.free ∧ (s.noteScanned page best data).pending = s.pending := by
  unfold State.noteScanned; repeat' (first | split | dsimp only)
  all_goals simp

@[simp] theorem State.probeNext_frame (l : List Die) :
    (s.probeNext l).tick = s.tick ∧ (s.probeNext l).pins = s.pins ∧ (s.probeNext l).free = s.free ∧
    (s.probeNext l).pending = s.pending := by
  unfold State.probeNext; repeat' (first | split | dsimp only)
  all_goals simp

@[simp] theorem State.scanEnded_frame (p : ScanFor) (r : ScanResult) :
    (s.scanEnded p r).tick = s.tick ∧ (s.scanEnded p r).pins = s.pins ∧ (s.scanEnded p r).free = s.free ∧
    (s.scanEnded p r).pending = s.pending := by
  unfold State.scanEnded; repeat' (first | split | dsimp only)
  all_goals simp

@[simp] theorem State.beginScan_frame (p : ScanFor) :
    (s.beginScan p).tick = s.tick ∧ (s.beginScan p).pins = s.pins ∧ (s.beginScan p).free = s.free ∧
    (s.beginScan p).pending = s.pending := by
  unfold State.beginScan; repeat' (first | split | dsimp only)
  all_goals simp

@[simp] theorem State.scanOn_frame (p : ScanFor) (page : Nat) (best : Option (Nat × Page)) (n : Nat) :
    (s.scanOn p page best n).tick = s.tick ∧ (s.scanOn p page best n).pins = s.pins ∧
    (s.scanOn p page best n).free = s.free ∧ (s.scanOn p page best n).pending = s.pending := by
  unfold State.scanOn; repeat' (first | split | dsimp only)
  all_goals simp

@[simp] theorem State.profileScanned_frame (p : ScanFor) (page : Nat) (best : Option (Nat × Page)) (n : Nat) (data : Page) :
    (s.profileScanned p page best n data).tick = s.tick ∧ (s.profileScanned p page best n data).pins = s.pins ∧
    (s.profileScanned p page best n data).free = s.free ∧ (s.profileScanned p page best n data).pending = s.pending := by
  unfold State.profileScanned; repeat' (first | split | dsimp only)
  all_goals simp

@[simp] theorem State.lineProbeNext_frame (l : List Die) :
    (s.lineProbeNext l).tick = s.tick ∧ (s.lineProbeNext l).pins = s.pins ∧ (s.lineProbeNext l).front = s.front ∧
    (s.lineProbeNext l).queue = s.queue ∧ (s.lineProbeNext l).drop = s.drop ∧ (s.lineProbeNext l).gauge = s.gauge ∧
    (s.lineProbeNext l).report = s.report ∧ (s.lineProbeNext l).free = s.free ∧
    (s.lineProbeNext l).pending = s.pending := by
  unfold State.lineProbeNext; repeat' (first | split | dsimp only)
  all_goals simp

@[simp] theorem State.recoverCounters_frame :
    s.recoverCounters.tick = s.tick ∧ s.recoverCounters.pins = s.pins ∧ s.recoverCounters.front = s.front ∧
    s.recoverCounters.queue = s.queue ∧ s.recoverCounters.media = s.media ∧ s.recoverCounters.gauge = s.gauge ∧
    s.recoverCounters.control = s.control ∧ s.recoverCounters.free = s.free ∧ s.recoverCounters.pending = s.pending := by
  unfold State.recoverCounters; repeat' (first | split | dsimp only)
  all_goals simp

@[simp] theorem State.recoverSettings_frame :
    s.recoverSettings.tick = s.tick ∧ s.recoverSettings.pins = s.pins ∧ s.recoverSettings.front = s.front ∧
    s.recoverSettings.queue = s.queue ∧ s.recoverSettings.media = s.media ∧ s.recoverSettings.drop = s.drop ∧
    s.recoverSettings.free = s.free ∧ s.recoverSettings.pending = s.pending := by
  unfold State.recoverSettings; repeat' (first | split | dsimp only)
  all_goals simp

@[simp] theorem State.recoverDrops_frame :
    s.recoverDrops.tick = s.tick ∧ s.recoverDrops.pins = s.pins ∧ s.recoverDrops.front = s.front ∧
    s.recoverDrops.queue = s.queue ∧ s.recoverDrops.media = s.media ∧ s.recoverDrops.gauge = s.gauge ∧
    s.recoverDrops.control = s.control ∧ s.recoverDrops.free = s.free ∧ s.recoverDrops.pending = s.pending := by
  simp [State.recoverDrops]

@[simp] theorem State.beginRecovery_frame :
    s.beginRecovery.tick = s.tick ∧ s.beginRecovery.pins = s.pins ∧ s.beginRecovery.queue = s.queue ∧
    s.beginRecovery.free = s.free ∧ s.beginRecovery.pending = s.pending := by
  simp [State.beginRecovery]

@[simp] theorem State.enterSpent_frame :
    s.enterSpent.tick = s.tick ∧ s.enterSpent.pins = s.pins ∧ s.enterSpent.queue = s.queue ∧
    s.enterSpent.free = s.free ∧ s.enterSpent.pending = s.pending := by
  unfold State.enterSpent; repeat' (first | split | dsimp only)
  all_goals simp

@[simp] theorem State.stopStartUp_frame :
    s.stopStartUp.tick = s.tick ∧ s.stopStartUp.pins = s.pins ∧ s.stopStartUp.queue = s.queue ∧
    s.stopStartUp.free = s.free ∧ s.stopStartUp.pending = s.pending := by
  simp [State.stopStartUp]

@[simp] theorem State.stopRecovery_frame :
    s.stopRecovery.tick = s.tick ∧ s.stopRecovery.pins = s.pins ∧ s.stopRecovery.front = s.front ∧
    s.stopRecovery.queue = s.queue ∧ s.stopRecovery.drop = s.drop ∧ s.stopRecovery.gauge = s.gauge ∧
    s.stopRecovery.report = s.report ∧ s.stopRecovery.free = s.free ∧ s.stopRecovery.pending = s.pending := by
  simp [State.stopRecovery]

@[simp] theorem State.endFlush_frame (o : FlushNoteOutcome) :
    (s.endFlush o).tick = s.tick ∧ (s.endFlush o).pins = s.pins ∧ (s.endFlush o).queue = s.queue ∧
    (s.endFlush o).free = s.free ∧ (s.endFlush o).pending = s.pending := by
  simp [State.endFlush]

@[simp] theorem State.endDrain_frame :
    s.endDrain.tick = s.tick ∧ s.endDrain.pins = s.pins ∧ s.endDrain.free = s.free ∧ s.endDrain.pending = s.pending := by
  unfold State.endDrain; repeat' (first | split | dsimp only)
  all_goals simp

@[simp] theorem State.noteWritten_frame (op : ServiceOp) (r : MediaResult) :
    (s.noteWritten op r).tick = s.tick ∧ (s.noteWritten op r).pins = s.pins ∧
    (s.noteWritten op r).front = s.front ∧ (s.noteWritten op r).queue = s.queue ∧
    (s.noteWritten op r).media = s.media ∧ (s.noteWritten op r).drop = s.drop ∧
    (s.noteWritten op r).gauge = s.gauge ∧ (s.noteWritten op r).report = s.report ∧
    (s.noteWritten op r).free = s.free ∧ (s.noteWritten op r).pending = s.pending := by
  unfold State.noteWritten; repeat' (first | split | dsimp only)
  all_goals simp

@[simp] theorem State.oldNoteWritten_frame (op : ServiceOp) (r : MediaResult) :
    (s.oldNoteWritten op r).tick = s.tick ∧ (s.oldNoteWritten op r).pins = s.pins ∧
    (s.oldNoteWritten op r).queue = s.queue ∧ (s.oldNoteWritten op r).drop = s.drop ∧
    (s.oldNoteWritten op r).gauge = s.gauge ∧ (s.oldNoteWritten op r).free = s.free ∧
    (s.oldNoteWritten op r).pending = s.pending := by
  unfold State.oldNoteWritten; repeat' (first | split | dsimp only)
  all_goals simp

@[simp] theorem State.sequenceResult_frame (op : ServiceOp) (r : MediaResult) :
    (s.sequenceResult op r).tick = s.tick ∧ (s.sequenceResult op r).pins = s.pins ∧
    (s.sequenceResult op r).free = s.free ∧ (s.sequenceResult op r).pending = s.pending := by
  unfold State.sequenceResult; repeat' (first | split | dsimp only)
  all_goals simp

@[simp] theorem State.serviceDone_frame (q : ServiceRequest) (r : MediaResult) :
    (s.serviceDone q r).tick = s.tick ∧ (s.serviceDone q r).pins = s.pins ∧ (s.serviceDone q r).free = s.free ∧
    (s.serviceDone q r).pending = s.pending := by
  unfold State.serviceDone; repeat' (first | split | dsimp only)
  all_goals simp

@[simp] theorem State.startMedia_frame (d : Die) (k : MediaKind) (row : Option Nat) (p : Page) (q : Requester) :
    (s.startMedia d k row p q).tick = s.tick ∧ (s.startMedia d k row p q).pins = s.pins ∧
    (s.startMedia d k row p q).front = s.front ∧ (s.startMedia d k row p q).queue = s.queue ∧
    (s.startMedia d k row p q).drop = s.drop ∧ (s.startMedia d k row p q).gauge = s.gauge ∧
    (s.startMedia d k row p q).control = s.control ∧ (s.startMedia d k row p q).report = s.report ∧
    (s.startMedia d k row p q).free = s.free ∧ (s.startMedia d k row p q).pending = s.pending := by
  simp [State.startMedia]

@[simp] theorem State.startFront_frame (d : Die) (row : Nat) :
    (s.startFront d row).tick = s.tick ∧ (s.startFront d row).pins = s.pins ∧
    (s.startFront d row).front = s.front ∧ (s.startFront d row).queue = s.queue ∧
    (s.startFront d row).drop = s.drop ∧ (s.startFront d row).gauge = s.gauge ∧
    (s.startFront d row).control = s.control ∧ (s.startFront d row).report = s.report ∧
    (s.startFront d row).free = s.free ∧ (s.startFront d row).pending = s.pending := by
  simp [State.startFront]

@[simp] theorem State.spendUnit_frame :
    s.spendUnit.tick = s.tick ∧ s.spendUnit.pins = s.pins ∧ s.spendUnit.front = s.front ∧
    s.spendUnit.queue = s.queue ∧ s.spendUnit.media = s.media ∧ s.spendUnit.drop = s.drop ∧
    s.spendUnit.gauge = s.gauge ∧ s.spendUnit.report = s.report ∧ s.spendUnit.free = s.free ∧
    s.spendUnit.pending = s.pending := by
  unfold State.spendUnit; repeat' (first | split | dsimp only)
  all_goals simp

@[simp] theorem State.startCommit_frame (d : Die) (e : Entry) :
    (s.startCommit d e).tick = s.tick ∧ (s.startCommit d e).pins = s.pins ∧ (s.startCommit d e).front = s.front ∧
    (s.startCommit d e).drop = s.drop ∧ (s.startCommit d e).gauge = s.gauge ∧
    (s.startCommit d e).report = s.report ∧ (s.startCommit d e).free = s.free ∧
    (s.startCommit d e).pending = s.pending := by
  simp [State.startCommit]

@[simp] theorem State.takeRequest_frame (r : ServiceRequest) :
    (s.takeRequest r).tick = s.tick ∧ (s.takeRequest r).pins = s.pins ∧ (s.takeRequest r).front = s.front ∧
    (s.takeRequest r).queue = s.queue ∧ (s.takeRequest r).drop = s.drop ∧ (s.takeRequest r).gauge = s.gauge ∧
    (s.takeRequest r).control = s.control ∧ (s.takeRequest r).report = s.report ∧ (s.takeRequest r).free = s.free ∧
    (s.takeRequest r).pending = s.pending := by
  simp [State.takeRequest]

@[simp] theorem State.startService_frame (d : Die) (r : ServiceRequest) :
    (s.startService d r).tick = s.tick ∧ (s.startService d r).pins = s.pins ∧
    (s.startService d r).queue = s.queue ∧ (s.startService d r).free = s.free ∧
    (s.startService d r).pending = s.pending := by
  unfold State.startService; repeat' (first | split | dsimp only)
  all_goals simp

@[simp] theorem State.countFailure_frame :
    s.countFailure.tick = s.tick ∧ s.countFailure.pins = s.pins ∧ s.countFailure.front = s.front ∧
    s.countFailure.queue = s.queue ∧ s.countFailure.drop = s.drop ∧ s.countFailure.gauge = s.gauge ∧
    s.countFailure.control = s.control ∧ s.countFailure.report = s.report ∧ s.countFailure.free = s.free ∧
    s.countFailure.pending = s.pending := by
  simp [State.countFailure]

@[simp] theorem State.deliver_frame (row c : Nat) (base : Page) (b : Bool) :
    (s.deliver row c base b).tick = s.tick ∧ (s.deliver row c base b).pins = s.pins ∧
    (s.deliver row c base b).queue = s.queue ∧ (s.deliver row c base b).media = s.media ∧
    (s.deliver row c base b).drop = s.drop ∧ (s.deliver row c base b).gauge = s.gauge ∧
    (s.deliver row c base b).control = s.control ∧ (s.deliver row c base b).report = s.report ∧
    (s.deliver row c base b).free = s.free ∧ (s.deliver row c base b).pending = s.pending := by
  simp [State.deliver]

@[simp] theorem State.frontReadDone_frame (base : Page) (b : Bool) :
    (s.frontReadDone base b).tick = s.tick ∧ (s.frontReadDone base b).pins = s.pins ∧
    (s.frontReadDone base b).queue = s.queue ∧ (s.frontReadDone base b).media = s.media ∧
    (s.frontReadDone base b).drop = s.drop ∧ (s.frontReadDone base b).gauge = s.gauge ∧
    (s.frontReadDone base b).control = s.control ∧ (s.frontReadDone base b).report = s.report ∧
    (s.frontReadDone base b).free = s.free ∧ (s.frontReadDone base b).pending = s.pending := by
  unfold State.frontReadDone; repeat' (first | split | dsimp only)
  all_goals simp

@[simp] theorem State.countLeaving_frame (b : Bool) :
    (s.countLeaving b).tick = s.tick ∧ (s.countLeaving b).pins = s.pins ∧ (s.countLeaving b).front = s.front ∧
    (s.countLeaving b).queue = s.queue ∧ (s.countLeaving b).media = s.media ∧ (s.countLeaving b).drop = s.drop ∧
    (s.countLeaving b).gauge = s.gauge ∧ (s.countLeaving b).report = s.report ∧ (s.countLeaving b).free = s.free ∧
    (s.countLeaving b).pending = s.pending := by
  unfold State.countLeaving; repeat' (first | split | dsimp only)
  all_goals simp

@[simp] theorem State.releaseFront_frame (e : Entry) (b : Bool) :
    (s.releaseFront e b).tick = s.tick ∧ (s.releaseFront e b).pins = s.pins ∧
    (s.releaseFront e b).queue = s.queue ∧ (s.releaseFront e b).media = s.media ∧
    (s.releaseFront e b).drop = s.drop ∧ (s.releaseFront e b).gauge = s.gauge ∧
    (s.releaseFront e b).control = s.control ∧ (s.releaseFront e b).report = s.report ∧
    (s.releaseFront e b).free = s.free ∧ (s.releaseFront e b).pending = s.pending := by
  unfold State.releaseFront; repeat' (first | split | dsimp only)
  all_goals simp

@[simp] theorem State.applyCommitted_frame (e : Entry) :
    (s.applyCommitted e).tick = s.tick ∧ (s.applyCommitted e).pins = s.pins ∧
    (s.applyCommitted e).front = s.front ∧ (s.applyCommitted e).queue = s.queue ∧
    (s.applyCommitted e).media = s.media ∧ (s.applyCommitted e).drop = s.drop ∧
    (s.applyCommitted e).free = s.free ∧ (s.applyCommitted e).pending = s.pending := by
  unfold State.applyCommitted; repeat' (first | split | dsimp only)
  all_goals simp

@[simp] theorem State.afterPass_frame (e : Entry) :
    (s.afterPass e).tick = s.tick ∧ (s.afterPass e).pins = s.pins ∧ (s.afterPass e).front = s.front ∧
    (s.afterPass e).queue = s.queue ∧ (s.afterPass e).media = s.media ∧ (s.afterPass e).pending = s.pending := by
  unfold State.afterPass; repeat' (first | split | dsimp only)
  all_goals simp

@[simp] theorem State.passCommit_frame (e : Entry) :
    (s.passCommit e).tick = s.tick ∧ (s.passCommit e).pins = s.pins ∧ (s.passCommit e).media = s.media ∧
    (s.passCommit e).pending = s.pending := by
  simp [State.passCommit]

@[simp] theorem State.failCommit_frame (e : Entry) (c : FailCause) :
    (s.failCommit e c).tick = s.tick ∧ (s.failCommit e c).pins = s.pins ∧ (s.failCommit e c).media = s.media ∧
    (s.failCommit e c).gauge = s.gauge ∧ (s.failCommit e c).free = s.free ∧ (s.failCommit e c).pending = s.pending := by
  unfold State.failCommit; repeat' (first | split | dsimp only)
  all_goals simp

@[simp] theorem State.commitDone_frame (d : Die) (r : MediaResult) :
    (s.commitDone d r).tick = s.tick ∧ (s.commitDone d r).pins = s.pins ∧ (s.commitDone d r).media = s.media ∧
    (s.commitDone d r).pending = s.pending := by
  unfold State.commitDone; repeat' (first | split | dsimp only)
  all_goals simp

@[simp] theorem State.handResult_frame (d : Die) (q : Requester) (r : MediaResult) (p : Page) :
    (s.handResult d q r p).tick = s.tick ∧ (s.handResult d q r p).pins = s.pins ∧
    (s.handResult d q r p).pending = s.pending := by
  unfold State.handResult; repeat' (first | split | dsimp only)
  all_goals simp

@[simp] theorem State.perform_frame (a : Action) :
    (s.perform a).tick = s.tick ∧ (s.perform a).pins = s.pins ∧ (s.perform a).pending = s.pending := by
  unfold State.perform; repeat' (first | split | dsimp only)
  all_goals simp

@[simp] theorem State.performPicked_frame (a : Action) (l : List Action) :
    (s.performPicked a l).tick = s.tick ∧ (s.performPicked a l).pins = s.pins ∧
    (s.performPicked a l).pending = s.pending := by
  unfold State.performPicked; repeat' (first | split | dsimp only)
  all_goals simp

@[simp] theorem State.handLines_frame :
    s.handLines.tick = s.tick ∧ s.handLines.pins = s.pins ∧ s.handLines.front = s.front ∧
    s.handLines.queue = s.queue ∧ s.handLines.drop = s.drop ∧ s.handLines.gauge = s.gauge ∧
    s.handLines.control = s.control ∧ s.handLines.report = s.report ∧ s.handLines.free = s.free ∧
    s.handLines.pending = s.pending := by
  simp [State.handLines]

end Sys2Proof.Machine
end

