-- ==== Sys2Proof/Laws/Control.lean ====
section
/-! SUPPORT. What each shared operation leaves unchanged in the Service Controller. -/

namespace Sys2Proof.Machine

variable (s : State)

@[simp] theorem State.putLive_control (v : Settings) :
    (s.putLive v).1.control.state = s.control.state ∧ (s.putLive v).1.control.sequence = s.control.sequence ∧
    (s.putLive v).1.control.budget = s.control.budget ∧ (s.putLive v).1.control.counts = s.control.counts ∧
    (s.putLive v).1.control.flushNote = s.control.flushNote ∧
    (s.putLive v).1.control.rowOverflow = s.control.rowOverflow ∧
    (s.putLive v).1.control.noteUsable = s.control.noteUsable ∧
    (s.putLive v).1.control.nextNotePage = s.control.nextNotePage ∧
    (s.putLive v).1.control.installed = s.control.installed ∧ (s.putLive v).1.control.rres = s.control.rres ∧
    (s.putLive v).1.control.profilePage = s.control.profilePage ∧
    (s.putLive v).1.control.startUpPending = s.control.startUpPending ∧
    (s.putLive v).1.control.lineReset = s.control.lineReset ∧ (s.putLive v).1.control.lrstTick = s.control.lrstTick ∧
    (s.putLive v).1.control.dipStart = s.control.dipStart := by
  simp [State.putLive]

@[simp] theorem State.laterApply_control (p : ProfileImage) (page : Option Nat) :
    (s.laterApply p page).1.control.state = s.control.state ∧
    (s.laterApply p page).1.control.sequence = s.control.sequence ∧
    (s.laterApply p page).1.control.budget = s.control.budget ∧
    (s.laterApply p page).1.control.counts = s.control.counts ∧
    (s.laterApply p page).1.control.flushNote = s.control.flushNote ∧
    (s.laterApply p page).1.control.rowOverflow = s.control.rowOverflow ∧
    (s.laterApply p page).1.control.noteUsable = s.control.noteUsable ∧
    (s.laterApply p page).1.control.nextNotePage = s.control.nextNotePage ∧
    (s.laterApply p page).1.control.installed = s.control.installed ∧
    (s.laterApply p page).1.control.rres = s.control.rres ∧
    (s.laterApply p page).1.control.lineReset = s.control.lineReset ∧
    (s.laterApply p page).1.control.lrstTick = s.control.lrstTick ∧
    (s.laterApply p page).1.control.dipStart = s.control.dipStart := by
  simp [State.laterApply]

@[simp] theorem State.wholeApply_control (p : ProfileImage) (page : Option Nat) (g : Gauge) :
    (s.wholeApply p page g).1.control.state = s.control.state ∧
    (s.wholeApply p page g).1.control.sequence = s.control.sequence ∧
    (s.wholeApply p page g).1.control.budget = s.control.budget ∧
    (s.wholeApply p page g).1.control.counts = s.control.counts ∧
    (s.wholeApply p page g).1.control.flushNote = s.control.flushNote ∧
    (s.wholeApply p page g).1.control.rowOverflow = s.control.rowOverflow ∧
    (s.wholeApply p page g).1.control.noteUsable = s.control.noteUsable ∧
    (s.wholeApply p page g).1.control.nextNotePage = s.control.nextNotePage ∧
    (s.wholeApply p page g).1.control.lineReset = s.control.lineReset ∧
    (s.wholeApply p page g).1.control.lrstTick = s.control.lrstTick ∧
    (s.wholeApply p page g).1.control.dipStart = s.control.dipStart := by
  simp [State.wholeApply]

@[simp] theorem State.startUpApply_control (p : ProfileImage) (page : Option Nat) :
    (s.startUpApply p page).1.control.state = s.control.state ∧
    (s.startUpApply p page).1.control.sequence = s.control.sequence ∧
    (s.startUpApply p page).1.control.budget = s.control.budget ∧
    (s.startUpApply p page).1.control.counts = s.control.counts ∧
    (s.startUpApply p page).1.control.flushNote = s.control.flushNote ∧
    (s.startUpApply p page).1.control.rowOverflow = s.control.rowOverflow ∧
    (s.startUpApply p page).1.control.noteUsable = s.control.noteUsable ∧
    (s.startUpApply p page).1.control.nextNotePage = s.control.nextNotePage ∧
    (s.startUpApply p page).1.control.lineReset = s.control.lineReset ∧
    (s.startUpApply p page).1.control.lrstTick = s.control.lrstTick ∧
    (s.startUpApply p page).1.control.dipStart = s.control.dipStart := by
  simp [State.startUpApply]

@[simp] theorem State.recoveryApply_control :
    s.recoveryApply.control.state = s.control.state ∧
    s.recoveryApply.control.sequence = s.control.sequence ∧
    s.recoveryApply.control.budget = s.control.budget ∧
    s.recoveryApply.control.counts = s.control.counts ∧
    s.recoveryApply.control.flushNote = s.control.flushNote ∧
    s.recoveryApply.control.rowOverflow = s.control.rowOverflow ∧
    s.recoveryApply.control.noteUsable = s.control.noteUsable ∧
    s.recoveryApply.control.nextNotePage = s.control.nextNotePage ∧
    s.recoveryApply.control.lineReset = s.control.lineReset ∧
    s.recoveryApply.control.lrstTick = s.control.lrstTick ∧
    s.recoveryApply.control.dipStart = s.control.dipStart := by
  simp [State.recoveryApply]

@[simp] theorem State.serviceApply_control (image : Page) (page : Nat) :
    (s.serviceApply image page).control.state = s.control.state ∧
    (s.serviceApply image page).control.sequence = s.control.sequence ∧
    (s.serviceApply image page).control.budget = s.control.budget ∧
    (s.serviceApply image page).control.counts = s.control.counts ∧
    (s.serviceApply image page).control.flushNote = s.control.flushNote ∧
    (s.serviceApply image page).control.rowOverflow = s.control.rowOverflow ∧
    (s.serviceApply image page).control.noteUsable = s.control.noteUsable ∧
    (s.serviceApply image page).control.nextNotePage = s.control.nextNotePage ∧
    (s.serviceApply image page).control.installed = s.control.installed ∧
    (s.serviceApply image page).control.rres = s.control.rres ∧
    (s.serviceApply image page).control.lineReset = s.control.lineReset ∧
    (s.serviceApply image page).control.lrstTick = s.control.lrstTick ∧
    (s.serviceApply image page).control.dipStart = s.control.dipStart := by
  unfold State.serviceApply; repeat' (first | split | dsimp only)
  all_goals simp

@[simp] theorem State.applyAtStartUp_control (r : ScanResult) :
    (s.applyAtStartUp r).control.state = s.control.state ∧
    (s.applyAtStartUp r).control.sequence = s.control.sequence ∧
    (s.applyAtStartUp r).control.budget = s.control.budget ∧ (s.applyAtStartUp r).control.counts = s.control.counts ∧
    (s.applyAtStartUp r).control.flushNote = s.control.flushNote ∧
    (s.applyAtStartUp r).control.rowOverflow = s.control.rowOverflow ∧
    (s.applyAtStartUp r).control.noteUsable = s.control.noteUsable ∧
    (s.applyAtStartUp r).control.nextNotePage = s.control.nextNotePage ∧
    (s.applyAtStartUp r).control.lineReset = s.control.lineReset ∧
    (s.applyAtStartUp r).control.lrstTick = s.control.lrstTick ∧
    (s.applyAtStartUp r).control.dipStart = s.control.dipStart := by
  unfold State.applyAtStartUp; repeat' (first | split | dsimp only)
  all_goals simp

@[simp] theorem State.applyAtLineReset_control (r : ScanResult) :
    (s.applyAtLineReset r).control.state = s.control.state ∧
    (s.applyAtLineReset r).control.sequence = s.control.sequence ∧
    (s.applyAtLineReset r).control.budget = s.control.budget ∧
    (s.applyAtLineReset r).control.counts = s.control.counts ∧
    (s.applyAtLineReset r).control.flushNote = s.control.flushNote ∧
    (s.applyAtLineReset r).control.rowOverflow = s.control.rowOverflow ∧
    (s.applyAtLineReset r).control.noteUsable = s.control.noteUsable ∧
    (s.applyAtLineReset r).control.nextNotePage = s.control.nextNotePage ∧
    (s.applyAtLineReset r).control.installed = s.control.installed ∧
    (s.applyAtLineReset r).control.rres = s.control.rres ∧
    (s.applyAtLineReset r).control.lineReset = s.control.lineReset ∧
    (s.applyAtLineReset r).control.lrstTick = s.control.lrstTick ∧
    (s.applyAtLineReset r).control.dipStart = s.control.dipStart := by
  unfold State.applyAtLineReset; repeat' (first | split | dsimp only)
  all_goals simp

@[simp] theorem State.applyCommitted_control (e : Entry) :
    (s.applyCommitted e).control.state = s.control.state ∧
    (s.applyCommitted e).control.sequence = s.control.sequence ∧
    (s.applyCommitted e).control.budget = s.control.budget ∧ (s.applyCommitted e).control.counts = s.control.counts ∧
    (s.applyCommitted e).control.flushNote = s.control.flushNote ∧
    (s.applyCommitted e).control.rowOverflow = s.control.rowOverflow ∧
    (s.applyCommitted e).control.noteUsable = s.control.noteUsable ∧
    (s.applyCommitted e).control.nextNotePage = s.control.nextNotePage ∧
    (s.applyCommitted e).control.installed = s.control.installed ∧
    (s.applyCommitted e).control.rres = s.control.rres ∧
    (s.applyCommitted e).control.lineReset = s.control.lineReset ∧
    (s.applyCommitted e).control.lrstTick = s.control.lrstTick ∧
    (s.applyCommitted e).control.dipStart = s.control.dipStart := by
  unfold State.applyCommitted; repeat' (first | split | dsimp only)
  all_goals simp

@[simp] theorem State.afterPass_control (e : Entry) :
    (s.afterPass e).control.state = s.control.state ∧ (s.afterPass e).control.sequence = s.control.sequence ∧
    (s.afterPass e).control.budget = s.control.budget ∧ (s.afterPass e).control.counts = s.control.counts ∧
    (s.afterPass e).control.flushNote = s.control.flushNote ∧
    (s.afterPass e).control.rowOverflow = s.control.rowOverflow ∧
    (s.afterPass e).control.noteUsable = s.control.noteUsable ∧
    (s.afterPass e).control.nextNotePage = s.control.nextNotePage ∧
    (s.afterPass e).control.installed = s.control.installed ∧ (s.afterPass e).control.rres = s.control.rres ∧
    (s.afterPass e).control.lineReset = s.control.lineReset ∧ (s.afterPass e).control.lrstTick = s.control.lrstTick ∧
    (s.afterPass e).control.dipStart = s.control.dipStart := by
  unfold State.afterPass; repeat' (first | split | dsimp only)
  all_goals simp

@[simp] theorem State.addFailedRow_control (r : FailedRow) :
    (s.addFailedRow r).1.control.state = s.control.state ∧
    (s.addFailedRow r).1.control.sequence = s.control.sequence ∧
    (s.addFailedRow r).1.control.budget = s.control.budget ∧ (s.addFailedRow r).1.control.counts = s.control.counts ∧
    (s.addFailedRow r).1.control.flushNote = s.control.flushNote ∧
    (s.addFailedRow r).1.control.noteUsable = s.control.noteUsable ∧
    (s.addFailedRow r).1.control.nextNotePage = s.control.nextNotePage ∧
    (s.addFailedRow r).1.control.installed = s.control.installed ∧
    (s.addFailedRow r).1.control.rres = s.control.rres ∧ (s.addFailedRow r).1.control.settings = s.control.settings ∧
    (s.addFailedRow r).1.control.profilePage = s.control.profilePage ∧
    (s.addFailedRow r).1.control.startUpPending = s.control.startUpPending ∧
    (s.addFailedRow r).1.control.lineReset = s.control.lineReset ∧
    (s.addFailedRow r).1.control.lrstTick = s.control.lrstTick ∧
    (s.addFailedRow r).1.control.dipStart = s.control.dipStart := by
  simp [State.addFailedRow]

@[simp] theorem State.reportUnwritten_control (e : Entry) (c : CommitFailCause) (w : Departure) :
    (s.reportUnwritten e c w).control.state = s.control.state ∧
    (s.reportUnwritten e c w).control.sequence = s.control.sequence ∧
    (s.reportUnwritten e c w).control.budget = s.control.budget ∧
    (s.reportUnwritten e c w).control.counts = s.control.counts ∧
    (s.reportUnwritten e c w).control.flushNote = s.control.flushNote ∧
    (s.reportUnwritten e c w).control.noteUsable = s.control.noteUsable ∧
    (s.reportUnwritten e c w).control.nextNotePage = s.control.nextNotePage ∧
    (s.reportUnwritten e c w).control.installed = s.control.installed ∧
    (s.reportUnwritten e c w).control.rres = s.control.rres ∧
    (s.reportUnwritten e c w).control.settings = s.control.settings ∧
    (s.reportUnwritten e c w).control.profilePage = s.control.profilePage ∧
    (s.reportUnwritten e c w).control.startUpPending = s.control.startUpPending ∧
    (s.reportUnwritten e c w).control.lineReset = s.control.lineReset ∧
    (s.reportUnwritten e c w).control.lrstTick = s.control.lrstTick ∧
    (s.reportUnwritten e c w).control.dipStart = s.control.dipStart := by
  simp [State.reportUnwritten]

@[simp] theorem foldl_reportUnwritten_control (c : CommitFailCause) (w : Departure) (l : List Entry) (s : State) :
    (l.foldl (fun acc e => acc.reportUnwritten e c w) s).control.state = s.control.state ∧
    (l.foldl (fun acc e => acc.reportUnwritten e c w) s).control.sequence = s.control.sequence ∧
    (l.foldl (fun acc e => acc.reportUnwritten e c w) s).control.budget = s.control.budget ∧
    (l.foldl (fun acc e => acc.reportUnwritten e c w) s).control.counts = s.control.counts ∧
    (l.foldl (fun acc e => acc.reportUnwritten e c w) s).control.flushNote = s.control.flushNote ∧
    (l.foldl (fun acc e => acc.reportUnwritten e c w) s).control.noteUsable = s.control.noteUsable ∧
    (l.foldl (fun acc e => acc.reportUnwritten e c w) s).control.nextNotePage = s.control.nextNotePage ∧
    (l.foldl (fun acc e => acc.reportUnwritten e c w) s).control.installed = s.control.installed ∧
    (l.foldl (fun acc e => acc.reportUnwritten e c w) s).control.rres = s.control.rres ∧
    (l.foldl (fun acc e => acc.reportUnwritten e c w) s).control.settings = s.control.settings ∧
    (l.foldl (fun acc e => acc.reportUnwritten e c w) s).control.profilePage = s.control.profilePage ∧
    (l.foldl (fun acc e => acc.reportUnwritten e c w) s).control.startUpPending = s.control.startUpPending ∧
    (l.foldl (fun acc e => acc.reportUnwritten e c w) s).control.lineReset = s.control.lineReset ∧
    (l.foldl (fun acc e => acc.reportUnwritten e c w) s).control.lrstTick = s.control.lrstTick ∧
    (l.foldl (fun acc e => acc.reportUnwritten e c w) s).control.dipStart = s.control.dipStart := by
  induction l generalizing s with
  | nil => simp
  | cons e l ih => simp [ih]

@[simp] theorem State.loseEntries_control :
    s.loseEntries.control.state = s.control.state ∧ s.loseEntries.control.sequence = s.control.sequence ∧
    s.loseEntries.control.budget = s.control.budget ∧ s.loseEntries.control.flushNote = s.control.flushNote ∧
    s.loseEntries.control.noteUsable = s.control.noteUsable ∧
    s.loseEntries.control.nextNotePage = s.control.nextNotePage ∧
    s.loseEntries.control.installed = s.control.installed ∧ s.loseEntries.control.rres = s.control.rres ∧
    s.loseEntries.control.settings = s.control.settings ∧ s.loseEntries.control.profilePage = s.control.profilePage ∧
    s.loseEntries.control.startUpPending = s.control.startUpPending ∧
    s.loseEntries.control.lineReset = s.control.lineReset ∧ s.loseEntries.control.lrstTick = s.control.lrstTick ∧
    s.loseEntries.control.dipStart = s.control.dipStart := by
  simp [State.loseEntries]

@[simp] theorem State.loadRows_control (rows : List FailedRow) :
    (s.loadRows rows).control.state = s.control.state ∧ (s.loadRows rows).control.sequence = s.control.sequence ∧
    (s.loadRows rows).control.budget = s.control.budget ∧ (s.loadRows rows).control.counts = s.control.counts ∧
    (s.loadRows rows).control.flushNote = s.control.flushNote ∧
    (s.loadRows rows).control.noteUsable = s.control.noteUsable ∧
    (s.loadRows rows).control.nextNotePage = s.control.nextNotePage ∧
    (s.loadRows rows).control.installed = s.control.installed ∧ (s.loadRows rows).control.rres = s.control.rres ∧
    (s.loadRows rows).control.settings = s.control.settings ∧
    (s.loadRows rows).control.profilePage = s.control.profilePage ∧
    (s.loadRows rows).control.startUpPending = s.control.startUpPending ∧
    (s.loadRows rows).control.lineReset = s.control.lineReset ∧
    (s.loadRows rows).control.lrstTick = s.control.lrstTick ∧ (s.loadRows rows).control.dipStart = s.control.dipStart := by
  unfold State.loadRows
  induction rows generalizing s with
  | nil => simp
  | cons r rows ih => simp [ih]

@[simp] theorem State.loseNote_control :
    s.loseNote.control.state = s.control.state ∧ s.loseNote.control.sequence = s.control.sequence ∧
    s.loseNote.control.budget = s.control.budget ∧ s.loseNote.control.counts = s.control.counts ∧
    s.loseNote.control.flushNote = s.control.flushNote ∧ s.loseNote.control.rowOverflow = s.control.rowOverflow ∧
    s.loseNote.control.nextNotePage = s.control.nextNotePage ∧ s.loseNote.control.installed = s.control.installed ∧
    s.loseNote.control.rres = s.control.rres ∧ s.loseNote.control.settings = s.control.settings ∧
    s.loseNote.control.profilePage = s.control.profilePage ∧
    s.loseNote.control.startUpPending = s.control.startUpPending ∧
    s.loseNote.control.lineReset = s.control.lineReset ∧ s.loseNote.control.lrstTick = s.control.lrstTick ∧
    s.loseNote.control.dipStart = s.control.dipStart := by
  simp [State.loseNote]

@[simp] theorem State.useNotePage_control :
    s.useNotePage.control.state = s.control.state ∧ s.useNotePage.control.sequence = s.control.sequence ∧
    s.useNotePage.control.budget = s.control.budget ∧ s.useNotePage.control.counts = s.control.counts ∧
    s.useNotePage.control.flushNote = s.control.flushNote ∧
    s.useNotePage.control.rowOverflow = s.control.rowOverflow ∧
    s.useNotePage.control.noteUsable = s.control.noteUsable ∧ s.useNotePage.control.installed = s.control.installed ∧
    s.useNotePage.control.rres = s.control.rres ∧ s.useNotePage.control.settings = s.control.settings ∧
    s.useNotePage.control.profilePage = s.control.profilePage ∧
    s.useNotePage.control.startUpPending = s.control.startUpPending ∧
    s.useNotePage.control.lineReset = s.control.lineReset ∧ s.useNotePage.control.lrstTick = s.control.lrstTick ∧
    s.useNotePage.control.dipStart = s.control.dipStart := by
  simp [State.useNotePage]

@[simp] theorem State.spendUnit_control :
    s.spendUnit.control.state = s.control.state ∧ s.spendUnit.control.sequence = s.control.sequence ∧
    s.spendUnit.control.counts = s.control.counts ∧ s.spendUnit.control.flushNote = s.control.flushNote ∧
    s.spendUnit.control.rowOverflow = s.control.rowOverflow ∧ s.spendUnit.control.noteUsable = s.control.noteUsable ∧
    s.spendUnit.control.nextNotePage = s.control.nextNotePage ∧ s.spendUnit.control.installed = s.control.installed ∧
    s.spendUnit.control.rres = s.control.rres ∧ s.spendUnit.control.settings = s.control.settings ∧
    s.spendUnit.control.profilePage = s.control.profilePage ∧
    s.spendUnit.control.startUpPending = s.control.startUpPending ∧
    s.spendUnit.control.lineReset = s.control.lineReset ∧ s.spendUnit.control.lrstTick = s.control.lrstTick ∧
    s.spendUnit.control.dipStart = s.control.dipStart := by
  unfold State.spendUnit; repeat' (first | split | dsimp only)
  all_goals simp

@[simp] theorem State.countLeaving_control (b : Bool) :
    (s.countLeaving b).control.state = s.control.state ∧ (s.countLeaving b).control.sequence = s.control.sequence ∧
    (s.countLeaving b).control.budget = s.control.budget ∧
    (s.countLeaving b).control.flushNote = s.control.flushNote ∧
    (s.countLeaving b).control.rowOverflow = s.control.rowOverflow ∧
    (s.countLeaving b).control.noteUsable = s.control.noteUsable ∧
    (s.countLeaving b).control.nextNotePage = s.control.nextNotePage ∧
    (s.countLeaving b).control.installed = s.control.installed ∧ (s.countLeaving b).control.rres = s.control.rres ∧
    (s.countLeaving b).control.settings = s.control.settings ∧
    (s.countLeaving b).control.profilePage = s.control.profilePage ∧
    (s.countLeaving b).control.startUpPending = s.control.startUpPending ∧
    (s.countLeaving b).control.lrstTick = s.control.lrstTick ∧
    (s.countLeaving b).control.dipStart = s.control.dipStart := by
  unfold State.countLeaving; repeat' (first | split | dsimp only)
  all_goals simp

@[simp] theorem State.passCommit_control (e : Entry) :
    (s.passCommit e).control.state = s.control.state ∧ (s.passCommit e).control.sequence = s.control.sequence ∧
    (s.passCommit e).control.budget = s.control.budget ∧ (s.passCommit e).control.flushNote = s.control.flushNote ∧
    (s.passCommit e).control.rowOverflow = s.control.rowOverflow ∧
    (s.passCommit e).control.noteUsable = s.control.noteUsable ∧
    (s.passCommit e).control.nextNotePage = s.control.nextNotePage ∧
    (s.passCommit e).control.installed = s.control.installed ∧ (s.passCommit e).control.rres = s.control.rres ∧
    (s.passCommit e).control.lrstTick = s.control.lrstTick ∧ (s.passCommit e).control.dipStart = s.control.dipStart := by
  simp [State.passCommit]

@[simp] theorem State.failCommit_control (e : Entry) (c : FailCause) :
    (s.failCommit e c).control.state = s.control.state ∧ (s.failCommit e c).control.sequence = s.control.sequence ∧
    (s.failCommit e c).control.budget = s.control.budget ∧
    (s.failCommit e c).control.flushNote = s.control.flushNote ∧
    (s.failCommit e c).control.noteUsable = s.control.noteUsable ∧
    (s.failCommit e c).control.nextNotePage = s.control.nextNotePage ∧
    (s.failCommit e c).control.installed = s.control.installed ∧ (s.failCommit e c).control.rres = s.control.rres ∧
    (s.failCommit e c).control.settings = s.control.settings ∧
    (s.failCommit e c).control.profilePage = s.control.profilePage ∧
    (s.failCommit e c).control.startUpPending = s.control.startUpPending ∧
    (s.failCommit e c).control.lrstTick = s.control.lrstTick ∧
    (s.failCommit e c).control.dipStart = s.control.dipStart := by
  unfold State.failCommit; repeat' (first | split | dsimp only)
  all_goals simp

@[simp] theorem State.commitDone_control (d : Die) (r : MediaResult) :
    (s.commitDone d r).control.state = s.control.state ∧ (s.commitDone d r).control.sequence = s.control.sequence ∧
    (s.commitDone d r).control.budget = s.control.budget ∧
    (s.commitDone d r).control.flushNote = s.control.flushNote ∧
    (s.commitDone d r).control.noteUsable = s.control.noteUsable ∧
    (s.commitDone d r).control.nextNotePage = s.control.nextNotePage ∧
    (s.commitDone d r).control.installed = s.control.installed ∧ (s.commitDone d r).control.rres = s.control.rres ∧
    (s.commitDone d r).control.lrstTick = s.control.lrstTick ∧
    (s.commitDone d r).control.dipStart = s.control.dipStart := by
  unfold State.commitDone; repeat' (first | split | dsimp only)
  all_goals simp

@[simp] theorem State.openNote_control (o : Opening) :
    (s.openNote o).control.state = s.control.state ∧ (s.openNote o).control.budget = s.control.budget ∧
    (s.openNote o).control.counts = s.control.counts ∧ (s.openNote o).control.flushNote = s.control.flushNote ∧
    (s.openNote o).control.rowOverflow = s.control.rowOverflow ∧
    (s.openNote o).control.noteUsable = s.control.noteUsable ∧
    (s.openNote o).control.nextNotePage = s.control.nextNotePage ∧
    (s.openNote o).control.installed = s.control.installed ∧ (s.openNote o).control.rres = s.control.rres ∧
    (s.openNote o).control.settings = s.control.settings ∧
    (s.openNote o).control.profilePage = s.control.profilePage ∧
    (s.openNote o).control.startUpPending = s.control.startUpPending ∧
    (s.openNote o).control.lineReset = s.control.lineReset ∧ (s.openNote o).control.lrstTick = s.control.lrstTick ∧
    (s.openNote o).control.dipStart = s.control.dipStart := by
  unfold State.openNote; repeat' (first | split | dsimp only)
  all_goals simp

@[simp] theorem State.enterService_control :
    s.enterService.control.budget = s.control.budget ∧ s.enterService.control.counts = s.control.counts ∧
    s.enterService.control.flushNote = s.control.flushNote ∧
    s.enterService.control.rowOverflow = s.control.rowOverflow ∧
    s.enterService.control.noteUsable = s.control.noteUsable ∧
    s.enterService.control.nextNotePage = s.control.nextNotePage ∧
    s.enterService.control.installed = s.control.installed ∧ s.enterService.control.rres = s.control.rres ∧
    s.enterService.control.settings = s.control.settings ∧
    s.enterService.control.profilePage = s.control.profilePage ∧
    s.enterService.control.startUpPending = s.control.startUpPending ∧
    s.enterService.control.lineReset = s.control.lineReset ∧ s.enterService.control.lrstTick = s.control.lrstTick ∧
    s.enterService.control.dipStart = s.control.dipStart := by
  simp [State.enterService]

@[simp] theorem State.finishOpening_control (o : Opening) :
    (s.finishOpening o).control.budget = s.control.budget ∧ (s.finishOpening o).control.counts = s.control.counts ∧
    (s.finishOpening o).control.flushNote = s.control.flushNote ∧
    (s.finishOpening o).control.rowOverflow = s.control.rowOverflow ∧
    (s.finishOpening o).control.noteUsable = s.control.noteUsable ∧
    (s.finishOpening o).control.nextNotePage = s.control.nextNotePage ∧
    (s.finishOpening o).control.installed = s.control.installed ∧ (s.finishOpening o).control.rres = s.control.rres ∧
    (s.finishOpening o).control.settings = s.control.settings ∧
    (s.finishOpening o).control.profilePage = s.control.profilePage ∧
    (s.finishOpening o).control.startUpPending = s.control.startUpPending ∧
    (s.finishOpening o).control.lineReset = s.control.lineReset ∧
    (s.finishOpening o).control.lrstTick = s.control.lrstTick ∧
    (s.finishOpening o).control.dipStart = s.control.dipStart := by
  unfold State.finishOpening; repeat' (first | split | dsimp only)
  all_goals simp

@[simp] theorem State.openOrFinish_control (o : Opening) :
    (s.openOrFinish o).control.budget = s.control.budget ∧ (s.openOrFinish o).control.counts = s.control.counts ∧
    (s.openOrFinish o).control.flushNote = s.control.flushNote ∧
    (s.openOrFinish o).control.rowOverflow = s.control.rowOverflow ∧
    (s.openOrFinish o).control.noteUsable = s.control.noteUsable ∧
    (s.openOrFinish o).control.nextNotePage = s.control.nextNotePage ∧
    (s.openOrFinish o).control.installed = s.control.installed ∧ (s.openOrFinish o).control.rres = s.control.rres ∧
    (s.openOrFinish o).control.settings = s.control.settings ∧
    (s.openOrFinish o).control.profilePage = s.control.profilePage ∧
    (s.openOrFinish o).control.startUpPending = s.control.startUpPending ∧
    (s.openOrFinish o).control.lineReset = s.control.lineReset ∧
    (s.openOrFinish o).control.lrstTick = s.control.lrstTick ∧
    (s.openOrFinish o).control.dipStart = s.control.dipStart := by
  unfold State.openOrFinish; repeat' (first | split | dsimp only)
  all_goals simp

@[simp] theorem State.noteWritten_control (op : ServiceOp) (r : MediaResult) :
    (s.noteWritten op r).control.state = s.control.state ∧
    (s.noteWritten op r).control.sequence = s.control.sequence ∧
    (s.noteWritten op r).control.budget = s.control.budget ∧ (s.noteWritten op r).control.counts = s.control.counts ∧
    (s.noteWritten op r).control.flushNote = s.control.flushNote ∧
    (s.noteWritten op r).control.rowOverflow = s.control.rowOverflow ∧
    (s.noteWritten op r).control.installed = s.control.installed ∧
    (s.noteWritten op r).control.rres = s.control.rres ∧ (s.noteWritten op r).control.settings = s.control.settings ∧
    (s.noteWritten op r).control.profilePage = s.control.profilePage ∧
    (s.noteWritten op r).control.startUpPending = s.control.startUpPending ∧
    (s.noteWritten op r).control.lineReset = s.control.lineReset ∧
    (s.noteWritten op r).control.lrstTick = s.control.lrstTick ∧
    (s.noteWritten op r).control.dipStart = s.control.dipStart := by
  unfold State.noteWritten; repeat' (first | split | dsimp only)
  all_goals simp

@[simp] theorem State.oldNoteWritten_control (op : ServiceOp) (r : MediaResult) :
    (s.oldNoteWritten op r).control.budget = s.control.budget ∧
    (s.oldNoteWritten op r).control.counts = s.control.counts ∧
    (s.oldNoteWritten op r).control.flushNote = s.control.flushNote ∧
    (s.oldNoteWritten op r).control.rowOverflow = s.control.rowOverflow ∧
    (s.oldNoteWritten op r).control.installed = s.control.installed ∧
    (s.oldNoteWritten op r).control.rres = s.control.rres ∧
    (s.oldNoteWritten op r).control.settings = s.control.settings ∧
    (s.oldNoteWritten op r).control.profilePage = s.control.profilePage ∧
    (s.oldNoteWritten op r).control.startUpPending = s.control.startUpPending ∧
    (s.oldNoteWritten op r).control.lineReset = s.control.lineReset ∧
    (s.oldNoteWritten op r).control.lrstTick = s.control.lrstTick ∧
    (s.oldNoteWritten op r).control.dipStart = s.control.dipStart := by
  unfold State.oldNoteWritten; repeat' (first | split | dsimp only)
  all_goals simp

@[simp] theorem State.cleanStart_control (page : Nat) (image : Page) :
    (s.cleanStart page image).control.budget = s.control.budget ∧
    (s.cleanStart page image).control.counts = s.control.counts ∧
    (s.cleanStart page image).control.flushNote = s.control.flushNote ∧
    (s.cleanStart page image).control.noteUsable = s.control.noteUsable ∧
    (s.cleanStart page image).control.nextNotePage = s.control.nextNotePage ∧
    (s.cleanStart page image).control.installed = s.control.installed ∧
    (s.cleanStart page image).control.rres = s.control.rres ∧
    (s.cleanStart page image).control.settings = s.control.settings ∧
    (s.cleanStart page image).control.profilePage = s.control.profilePage ∧
    (s.cleanStart page image).control.startUpPending = s.control.startUpPending ∧
    (s.cleanStart page image).control.lineReset = s.control.lineReset ∧
    (s.cleanStart page image).control.lrstTick = s.control.lrstTick ∧
    (s.cleanStart page image).control.dipStart = s.control.dipStart := by
  simp [State.cleanStart]

@[simp] theorem State.uncleanStart_control (page : Nat) (image : Page) :
    (s.uncleanStart page image).control.budget = s.control.budget ∧
    (s.uncleanStart page image).control.counts = s.control.counts ∧
    (s.uncleanStart page image).control.flushNote = s.control.flushNote ∧
    (s.uncleanStart page image).control.rowOverflow = s.control.rowOverflow ∧
    (s.uncleanStart page image).control.noteUsable = s.control.noteUsable ∧
    (s.uncleanStart page image).control.nextNotePage = s.control.nextNotePage ∧
    (s.uncleanStart page image).control.installed = s.control.installed ∧
    (s.uncleanStart page image).control.rres = s.control.rres ∧
    (s.uncleanStart page image).control.settings = s.control.settings ∧
    (s.uncleanStart page image).control.profilePage = s.control.profilePage ∧
    (s.uncleanStart page image).control.startUpPending = s.control.startUpPending ∧
    (s.uncleanStart page image).control.lineReset = s.control.lineReset ∧
    (s.uncleanStart page image).control.lrstTick = s.control.lrstTick ∧
    (s.uncleanStart page image).control.dipStart = s.control.dipStart := by
  simp [State.uncleanStart]

@[simp] theorem State.noNoteStart_control :
    s.noNoteStart.control.budget = s.control.budget ∧ s.noNoteStart.control.counts = s.control.counts ∧
    s.noNoteStart.control.flushNote = s.control.flushNote ∧
    s.noNoteStart.control.rowOverflow = s.control.rowOverflow ∧
    s.noNoteStart.control.noteUsable = s.control.noteUsable ∧
    s.noNoteStart.control.nextNotePage = s.control.nextNotePage ∧
    s.noNoteStart.control.installed = s.control.installed ∧ s.noNoteStart.control.rres = s.control.rres ∧
    s.noNoteStart.control.settings = s.control.settings ∧ s.noNoteStart.control.profilePage = s.control.profilePage ∧
    s.noNoteStart.control.startUpPending = s.control.startUpPending ∧
    s.noNoteStart.control.lineReset = s.control.lineReset ∧ s.noNoteStart.control.lrstTick = s.control.lrstTick ∧
    s.noNoteStart.control.dipStart = s.control.dipStart := by
  simp [State.noNoteStart]

@[simp] theorem State.settleNote_control (best : Option (Nat × Page)) :
    (s.settleNote best).control.budget = s.control.budget ∧ (s.settleNote best).control.counts = s.control.counts ∧
    (s.settleNote best).control.flushNote = s.control.flushNote ∧
    (s.settleNote best).control.noteUsable = s.control.noteUsable ∧
    (s.settleNote best).control.nextNotePage = s.control.nextNotePage ∧
    (s.settleNote best).control.installed = s.control.installed ∧ (s.settleNote best).control.rres = s.control.rres ∧
    (s.settleNote best).control.settings = s.control.settings ∧
    (s.settleNote best).control.profilePage = s.control.profilePage ∧
    (s.settleNote best).control.startUpPending = s.control.startUpPending ∧
    (s.settleNote best).control.lineReset = s.control.lineReset ∧
    (s.settleNote best).control.lrstTick = s.control.lrstTick ∧
    (s.settleNote best).control.dipStart = s.control.dipStart := by
  unfold State.settleNote; repeat' (first | split | dsimp only)
  all_goals simp

@[simp] theorem State.beginNoteScan_control :
    s.beginNoteScan.control.budget = s.control.budget ∧ s.beginNoteScan.control.counts = s.control.counts ∧
    s.beginNoteScan.control.flushNote = s.control.flushNote ∧
    s.beginNoteScan.control.nextNotePage = s.control.nextNotePage ∧
    s.beginNoteScan.control.installed = s.control.installed ∧ s.beginNoteScan.control.rres = s.control.rres ∧
    s.beginNoteScan.control.settings = s.control.settings ∧
    s.beginNoteScan.control.profilePage = s.control.profilePage ∧
    s.beginNoteScan.control.startUpPending = s.control.startUpPending ∧
    s.beginNoteScan.control.lineReset = s.control.lineReset ∧ s.beginNoteScan.control.lrstTick = s.control.lrstTick ∧
    s.beginNoteScan.control.dipStart = s.control.dipStart := by
  unfold State.beginNoteScan; repeat' (first | split | dsimp only)
  all_goals simp

@[simp] theorem State.noteScanned_control (page : Nat) (best : Option (Nat × Page)) (data : Page) :
    (s.noteScanned page best data).control.budget = s.control.budget ∧
    (s.noteScanned page best data).control.counts = s.control.counts ∧
    (s.noteScanned page best data).control.flushNote = s.control.flushNote ∧
    (s.noteScanned page best data).control.noteUsable = s.control.noteUsable ∧
    (s.noteScanned page best data).control.installed = s.control.installed ∧
    (s.noteScanned page best data).control.rres = s.control.rres ∧
    (s.noteScanned page best data).control.settings = s.control.settings ∧
    (s.noteScanned page best data).control.profilePage = s.control.profilePage ∧
    (s.noteScanned page best data).control.startUpPending = s.control.startUpPending ∧
    (s.noteScanned page best data).control.lineReset = s.control.lineReset ∧
    (s.noteScanned page best data).control.lrstTick = s.control.lrstTick ∧
    (s.noteScanned page best data).control.dipStart = s.control.dipStart := by
  unfold State.noteScanned; repeat' (first | split | dsimp only)
  all_goals simp

@[simp] theorem State.probeNext_control (l : List Die) :
    (s.probeNext l).control.budget = s.control.budget ∧ (s.probeNext l).control.counts = s.control.counts ∧
    (s.probeNext l).control.flushNote = s.control.flushNote ∧
    (s.probeNext l).control.nextNotePage = s.control.nextNotePage ∧
    (s.probeNext l).control.installed = s.control.installed ∧ (s.probeNext l).control.rres = s.control.rres ∧
    (s.probeNext l).control.settings = s.control.settings ∧
    (s.probeNext l).control.profilePage = s.control.profilePage ∧
    (s.probeNext l).control.startUpPending = s.control.startUpPending ∧
    (s.probeNext l).control.lineReset = s.control.lineReset ∧ (s.probeNext l).control.lrstTick = s.control.lrstTick ∧
    (s.probeNext l).control.dipStart = s.control.dipStart := by
  unfold State.probeNext; repeat' (first | split | dsimp only)
  all_goals simp

@[simp] theorem State.scanEnded_control (p : ScanFor) (r : ScanResult) :
    (s.scanEnded p r).control.budget = s.control.budget ∧ (s.scanEnded p r).control.counts = s.control.counts ∧
    (s.scanEnded p r).control.flushNote = s.control.flushNote ∧
    (s.scanEnded p r).control.nextNotePage = s.control.nextNotePage ∧
    (s.scanEnded p r).control.lineReset = s.control.lineReset ∧
    (s.scanEnded p r).control.lrstTick = s.control.lrstTick ∧ (s.scanEnded p r).control.dipStart = s.control.dipStart := by
  unfold State.scanEnded; repeat' (first | split | dsimp only)
  all_goals simp

@[simp] theorem State.beginScan_control (p : ScanFor) :
    (s.beginScan p).control.budget = s.control.budget ∧ (s.beginScan p).control.counts = s.control.counts ∧
    (s.beginScan p).control.flushNote = s.control.flushNote ∧
    (s.beginScan p).control.nextNotePage = s.control.nextNotePage ∧
    (s.beginScan p).control.lineReset = s.control.lineReset ∧ (s.beginScan p).control.lrstTick = s.control.lrstTick ∧
    (s.beginScan p).control.dipStart = s.control.dipStart := by
  unfold State.beginScan; repeat' (first | split | dsimp only)
  all_goals simp

@[simp] theorem State.scanOn_control (p : ScanFor) (page : Nat) (best : Option (Nat × Page)) (n : Nat) :
    (s.scanOn p page best n).control.budget = s.control.budget ∧
    (s.scanOn p page best n).control.counts = s.control.counts ∧
    (s.scanOn p page best n).control.flushNote = s.control.flushNote ∧
    (s.scanOn p page best n).control.nextNotePage = s.control.nextNotePage ∧
    (s.scanOn p page best n).control.lineReset = s.control.lineReset ∧
    (s.scanOn p page best n).control.lrstTick = s.control.lrstTick ∧
    (s.scanOn p page best n).control.dipStart = s.control.dipStart := by
  unfold State.scanOn; repeat' (first | split | dsimp only)
  all_goals simp

@[simp] theorem State.profileScanned_control (p : ScanFor) (page : Nat) (best : Option (Nat × Page)) (n : Nat) (data : Page) :
    (s.profileScanned p page best n data).control.budget = s.control.budget ∧
    (s.profileScanned p page best n data).control.counts = s.control.counts ∧
    (s.profileScanned p page best n data).control.flushNote = s.control.flushNote ∧
    (s.profileScanned p page best n data).control.nextNotePage = s.control.nextNotePage ∧
    (s.profileScanned p page best n data).control.lineReset = s.control.lineReset ∧
    (s.profileScanned p page best n data).control.lrstTick = s.control.lrstTick ∧
    (s.profileScanned p page best n data).control.dipStart = s.control.dipStart := by
  unfold State.profileScanned; repeat' (first | split | dsimp only)
  all_goals simp

@[simp] theorem State.lineProbeNext_control (l : List Die) :
    (s.lineProbeNext l).control.state = s.control.state ∧ (s.lineProbeNext l).control.budget = s.control.budget ∧
    (s.lineProbeNext l).control.counts = s.control.counts ∧
    (s.lineProbeNext l).control.flushNote = s.control.flushNote ∧
    (s.lineProbeNext l).control.rowOverflow = s.control.rowOverflow ∧
    (s.lineProbeNext l).control.noteUsable = s.control.noteUsable ∧
    (s.lineProbeNext l).control.nextNotePage = s.control.nextNotePage ∧
    (s.lineProbeNext l).control.installed = s.control.installed ∧ (s.lineProbeNext l).control.rres = s.control.rres ∧
    (s.lineProbeNext l).control.settings = s.control.settings ∧
    (s.lineProbeNext l).control.profilePage = s.control.profilePage ∧
    (s.lineProbeNext l).control.startUpPending = s.control.startUpPending ∧
    (s.lineProbeNext l).control.lineReset = s.control.lineReset ∧
    (s.lineProbeNext l).control.lrstTick = s.control.lrstTick ∧
    (s.lineProbeNext l).control.dipStart = s.control.dipStart := by
  unfold State.lineProbeNext; repeat' (first | split | dsimp only)
  all_goals simp

@[simp] theorem State.recoverSettings_control :
    s.recoverSettings.control.state = s.control.state ∧ s.recoverSettings.control.sequence = s.control.sequence ∧
    s.recoverSettings.control.budget = s.control.budget ∧ s.recoverSettings.control.counts = s.control.counts ∧
    s.recoverSettings.control.flushNote = s.control.flushNote ∧
    s.recoverSettings.control.rowOverflow = s.control.rowOverflow ∧
    s.recoverSettings.control.noteUsable = s.control.noteUsable ∧
    s.recoverSettings.control.nextNotePage = s.control.nextNotePage ∧
    s.recoverSettings.control.lineReset = s.control.lineReset ∧
    s.recoverSettings.control.lrstTick = s.control.lrstTick ∧ s.recoverSettings.control.dipStart = s.control.dipStart := by
  unfold State.recoverSettings; repeat' (first | split | dsimp only)
  all_goals simp

@[simp] theorem State.beginRecovery_control :
    s.beginRecovery.control.budget = s.control.budget ∧ s.beginRecovery.control.counts = s.control.counts ∧
    s.beginRecovery.control.flushNote = s.control.flushNote ∧
    s.beginRecovery.control.rowOverflow = s.control.rowOverflow ∧
    s.beginRecovery.control.noteUsable = s.control.noteUsable ∧
    s.beginRecovery.control.nextNotePage = s.control.nextNotePage ∧
    s.beginRecovery.control.lineReset = s.control.lineReset ∧ s.beginRecovery.control.lrstTick = s.control.lrstTick ∧
    s.beginRecovery.control.dipStart = s.control.dipStart := by
  simp [State.beginRecovery]

@[simp] theorem State.enterSpent_control :
    s.enterSpent.control.budget = s.control.budget ∧ s.enterSpent.control.counts = s.control.counts ∧
    s.enterSpent.control.flushNote = s.control.flushNote ∧ s.enterSpent.control.rowOverflow = s.control.rowOverflow ∧
    s.enterSpent.control.noteUsable = s.control.noteUsable ∧
    s.enterSpent.control.nextNotePage = s.control.nextNotePage ∧
    s.enterSpent.control.lineReset = s.control.lineReset ∧ s.enterSpent.control.lrstTick = s.control.lrstTick ∧
    s.enterSpent.control.dipStart = s.control.dipStart := by
  unfold State.enterSpent; repeat' (first | split | dsimp only)
  all_goals simp

@[simp] theorem State.stopStartUp_control :
    s.stopStartUp.control.budget = s.control.budget ∧ s.stopStartUp.control.counts = s.control.counts ∧
    s.stopStartUp.control.flushNote = s.control.flushNote ∧
    s.stopStartUp.control.rowOverflow = s.control.rowOverflow ∧
    s.stopStartUp.control.nextNotePage = s.control.nextNotePage ∧
    s.stopStartUp.control.lineReset = s.control.lineReset ∧ s.stopStartUp.control.lrstTick = s.control.lrstTick := by
  simp [State.stopStartUp]

@[simp] theorem State.stopRecovery_control :
    s.stopRecovery.control.state = s.control.state ∧ s.stopRecovery.control.budget = s.control.budget ∧
    s.stopRecovery.control.counts = s.control.counts ∧ s.stopRecovery.control.flushNote = s.control.flushNote ∧
    s.stopRecovery.control.rowOverflow = s.control.rowOverflow ∧
    s.stopRecovery.control.noteUsable = s.control.noteUsable ∧
    s.stopRecovery.control.nextNotePage = s.control.nextNotePage ∧
    s.stopRecovery.control.installed = s.control.installed ∧ s.stopRecovery.control.rres = s.control.rres ∧
    s.stopRecovery.control.settings = s.control.settings ∧
    s.stopRecovery.control.profilePage = s.control.profilePage ∧
    s.stopRecovery.control.startUpPending = s.control.startUpPending ∧
    s.stopRecovery.control.lineReset = s.control.lineReset ∧ s.stopRecovery.control.lrstTick = s.control.lrstTick ∧
    s.stopRecovery.control.dipStart = s.control.dipStart := by
  simp [State.stopRecovery]

@[simp] theorem State.endFlush_control (o : FlushNoteOutcome) :
    (s.endFlush o).control.budget = s.control.budget ∧ (s.endFlush o).control.counts = s.control.counts ∧
    (s.endFlush o).control.rowOverflow = s.control.rowOverflow ∧
    (s.endFlush o).control.noteUsable = s.control.noteUsable ∧
    (s.endFlush o).control.nextNotePage = s.control.nextNotePage ∧
    (s.endFlush o).control.lineReset = s.control.lineReset ∧ (s.endFlush o).control.lrstTick = s.control.lrstTick ∧
    (s.endFlush o).control.dipStart = s.control.dipStart := by
  simp [State.endFlush]

@[simp] theorem State.endDrain_control :
    s.endDrain.control.budget = s.control.budget ∧ s.endDrain.control.noteUsable = s.control.noteUsable ∧
    s.endDrain.control.nextNotePage = s.control.nextNotePage ∧ s.endDrain.control.lineReset = s.control.lineReset ∧
    s.endDrain.control.lrstTick = s.control.lrstTick ∧ s.endDrain.control.dipStart = s.control.dipStart := by
  unfold State.endDrain; repeat' (first | split | dsimp only)
  all_goals simp

@[simp] theorem State.startService_control (d : Die) (r : ServiceRequest) :
    (s.startService d r).control.counts = s.control.counts ∧
    (s.startService d r).control.rowOverflow = s.control.rowOverflow ∧
    (s.startService d r).control.noteUsable = s.control.noteUsable ∧
    (s.startService d r).control.lineReset = s.control.lineReset ∧
    (s.startService d r).control.lrstTick = s.control.lrstTick ∧
    (s.startService d r).control.dipStart = s.control.dipStart := by
  unfold State.startService; repeat' (first | split | dsimp only)
  all_goals simp

@[simp] theorem State.startCommit_control (d : Die) (e : Entry) :
    (s.startCommit d e).control.state = s.control.state ∧ (s.startCommit d e).control.sequence = s.control.sequence ∧
    (s.startCommit d e).control.counts = s.control.counts ∧
    (s.startCommit d e).control.flushNote = s.control.flushNote ∧
    (s.startCommit d e).control.rowOverflow = s.control.rowOverflow ∧
    (s.startCommit d e).control.noteUsable = s.control.noteUsable ∧
    (s.startCommit d e).control.nextNotePage = s.control.nextNotePage ∧
    (s.startCommit d e).control.installed = s.control.installed ∧ (s.startCommit d e).control.rres = s.control.rres ∧
    (s.startCommit d e).control.settings = s.control.settings ∧
    (s.startCommit d e).control.profilePage = s.control.profilePage ∧
    (s.startCommit d e).control.startUpPending = s.control.startUpPending ∧
    (s.startCommit d e).control.lineReset = s.control.lineReset ∧
    (s.startCommit d e).control.lrstTick = s.control.lrstTick ∧
    (s.startCommit d e).control.dipStart = s.control.dipStart := by
  simp [State.startCommit]

end Sys2Proof.Machine
end

