-- ==== Sys2Proof/Laws/Drop.lean ====
section
/-! SUPPORT. The Drop Monitor: what each shared operation does to the youngest drop, the onsets and the table (R85 to
R100). -/

namespace Sys2Proof.Machine

/-! ### The youngest drop -/

@[simp] theorem updateYoungest_append (f : Drop → Drop) (older : List Drop) (x : Drop) :
    updateYoungest f (older ++ [x]) = older ++ [f x] := by
  induction older with
  | nil => rfl
  | cons a older ih =>
    cases older with
    | nil => rfl
    | cons b older => simpa [updateYoungest] using ih

@[simp] theorem updateYoungest_nil (f : Drop → Drop) : updateYoungest f [] = [] := rfl

@[simp] theorem updateYoungest_length (f : Drop → Drop) (l : List Drop) :
    (updateYoungest f l).length = l.length := by
  rcases List.eq_nil_or_concat l with rfl | ⟨older, x, rfl⟩ <;> simp

/-- An operation that keeps every number keeps the list of numbers. -/
theorem updateYoungest_numbers {f : Drop → Drop} (hf : ∀ x, (f x).number = x.number) (l : List Drop) :
    (updateYoungest f l).map (·.number) = l.map (·.number) := by
  rcases List.eq_nil_or_concat l with rfl | ⟨older, x, rfl⟩ <;> simp [hf]

@[simp] theorem updateTagged_length (tag : Tick) (f : Drop → Drop) (l : List Drop) :
    (updateTagged tag f l).length = l.length := by simp [updateTagged]

theorem updateTagged_getElem? (tag : Tick) (f : Drop → Drop) (l : List Drop) (i : Nat) :
    (updateTagged tag f l)[i]? = (l[i]?).map (fun x => if x.number = tag then f x else x) := by simp [updateTagged]

theorem ServiceState.dips_eq (v : ServiceState) : v.dips = v.opensDipped := by cases v <;> rfl

/-! ### Onsets -/

theorem endListed_of_ended {start stop : Tick} {l : List Onset} (h : ∀ o ∈ l, o.stop ≠ none) :
    endListed start stop l = (l, 0) := by
  induction l with
  | nil => rfl
  | cons a l ih =>
    have := h a (by simp)
    simp [endListed, this, ih (fun o ho => h o (by simp [ho]))]

theorem endListed_append {start stop : Tick} {l : List Onset} (h : ∀ o ∈ l, o.stop ≠ none) :
    endListed start stop (l ++ [{ start := start, stop := none }]) =
      (l ++ [{ start := start, stop := some stop }], (stop - start).toNat) := by
  induction l with
  | nil => simp [endListed]
  | cons a l ih =>
    have := h a (by simp)
    simp [endListed, this, ih (fun o ho => h o (by simp [ho]))]

@[simp] theorem endListed_length (start stop : Tick) (l : List Onset) :
    (endListed start stop l).1.length = l.length := by
  induction l with
  | nil => rfl
  | cons a l ih => unfold endListed; split <;> simp [ih]

theorem Drop.endOnset_eq {x y : Drop} {start stop : Tick} (h : x.OnsetEnds start stop y) :
    x.endOnset start stop = y := by
  rcases h with ⟨earlier, h1, h2, rfl⟩ | ⟨h1, hb, rfl⟩
  · simp [Drop.endOnset, h1, endListed_append h2, satAdd]
  · simp [Drop.endOnset, endListed_of_ended h1, satAdd, Nat.min_eq_right hb]

/-! ### Closing -/

theorem DropMonitor.close_eq {d : DropMonitor} {stamp : Tick} {ceiling : Bool} {older : List Drop} {x y : Drop}
    (h : d.pending = older ++ [x]) (hc : x.ClosesTo d.openOnset d.impactStart stamp ceiling y) :
    d.close stamp ceiling =
      { d with state := .calm, mergeTimer := .stopped, settleTimer := .stopped, ceilingTimer := .stopped
               openOnset := none, impactStart := none, pending := older ++ [y] } := by
  obtain ⟨z, hz, rfl⟩ := hc
  have e1 : d.endOnset stamp = { d with openOnset := none, pending := older ++ [z] } := by
    rcases hz with ⟨h1, rfl⟩ | ⟨a, h1, h2⟩
    · simp only [DropMonitor.endOnset, h1, ← h]
      cases d
      simp_all
    · simp [DropMonitor.endOnset, h1, DropMonitor.youngest, h, Drop.endOnset_eq h2]
  unfold DropMonitor.close
  rw [e1]
  unfold DropMonitor.endImpact
  cases hi : d.impactStart <;> simp [DropMonitor.youngest, Drop.keepWidth]

/-! ### Passing drops on (R100) -/

theorem Drop.ready_isSome (x : Drop) : x.ready.isSome = true ↔ x.isReady := by
  unfold Drop.ready Drop.isReady Drop.isClosed
  cases x.condition <;> simp

/-- The oldest ready drops leave in order; the first that is not ready keeps the rest. -/
theorem passReady_cases (mask : BitVec 16) (stamp : Tick) (l : List Drop) (r : ReportMemory) :
    ∃ gone rest, l = gone ++ rest ∧ (∀ x ∈ gone, x.isReady) ∧ (∀ x more, rest = x :: more → ¬ x.isReady) ∧
      passReady mask stamp l r = (rest, gone.foldl (fun r x =>
        match x.condition with
        | .opened => r
        | .closed tick => r.append mask stamp (.drop (x.toRecord tick))) r) := by
  induction l generalizing r with
  | nil => exact ⟨[], [], rfl, by simp, by simp, rfl⟩
  | cons a l ih =>
    unfold passReady
    cases hc : a.condition with
    | opened =>
      have : a.ready = none := by simp [Drop.ready, hc]
      exact ⟨[], a :: l, rfl, by simp, by intro x m h; cases h; simp [Drop.isReady, Drop.isClosed, hc], by simp [this]⟩
    | closed t =>
      by_cases h0 : a.outstanding = 0
      · have : a.ready = some (a.toRecord t) := by simp [Drop.ready, hc, h0]
        obtain ⟨g, rest, h1, h2, h3, h4⟩ := ih (r.append mask stamp (.drop (a.toRecord t)))
        refine ⟨a :: g, rest, by simp [h1], ?_, h3, ?_⟩
        · intro x hx
          rcases List.mem_cons.1 hx with rfl | hx
          · simp [Drop.isReady, Drop.isClosed, hc, h0]
          · exact h2 x hx
        · simp [this, h4, hc]
      · have : a.ready = none := by simp [Drop.ready, hc, h0]
        exact ⟨[], a :: l, rfl, by simp, by intro x m h; cases h; simp [Drop.isReady, h0], by simp [this]⟩

/-- A departure told to the Drop Monitor does not look at the front. -/
theorem State.dropDeparted_withFront (s : State) (f : FrontPort) (tag : Option Tick) (way : Departure) :
    (s.dropDeparted tag way).withFront f = (s.withFront f).dropDeparted tag way := by
  cases tag with
  | none => rfl
  | some n => by_cases h : s.drop.loaded <;> simp [State.dropDeparted, State.reportDrops, h] <;> rfl

/-- A departure told to the Drop Monitor, with the counts of R97 written out. -/
theorem State.dropDeparted_some (s : State) (tag : Tick) (way : Departure) :
    s.dropDeparted (some tag) way = State.reportDrops { s with
      drop := { s.drop with pending := s.drop.pending.map (fun x =>
        if x.number = tag then
          { x with
            outstanding := x.outstanding - 1
            failed := if way = .failed ∨ way = .lost then min 65535 (x.failed + 1) else x.failed }
        else x) } } := by
  cases way <;> rfl

end Sys2Proof.Machine
end

