-- ==== Sys2Proof/Laws/Pump.lean ====
section
/-! SUPPORT. What one step and one consequence can be, and the induction over the consequences of an event. -/

namespace Sys2Proof.Machine

/-! ### Steps -/

/-- A step idles, or runs the front command on the rest of the queue. -/
theorem step_cases {s t : State} (h : step s = .next t) :
    (s.pending = [] ∧ t = s) ∨ ∃ c rest, s.pending = c :: rest ∧ exec c (s.withPending rest) = .next t := by
  unfold step at h
  split at h
  · exact .inl ⟨‹_›, by cases h; rfl⟩
  · exact .inr ⟨_, _, ‹_›, h⟩

/-- A condition that no waiting command can change holds after a step if every command keeps it. -/
theorem step_keeps {P : State → Prop} (hp : ∀ s l, P s → P (s.withPending l))
    (he : ∀ c s t, P s → exec c s = .next t → P t) {s t : State} (h : step s = .next t) (hs : P s) : P t := by
  obtain ⟨-, rfl⟩ | ⟨c, rest, -, hc⟩ := step_cases h
  · exact hs
  · exact he _ _ _ (hp _ _ hs) hc

/-! ### What can be granted and settled -/

theorem State.grantFor_cases {s : State} {d : Die} {g : Grant} (h : s.grantFor d = some g) :
    (∃ r ∈ s.media.services, g = .service r ∧ r.op.die = d ∧ r.op.isProbe = false ∧ s.serviceUngated r = true) ∨
    (∃ row contested, g = .front row contested ∧ s.frontFor d = some row ∧
      (contested = true → (s.media.dies.get d).patience < s.control.settings.patience)) ∨
    ∃ e, g = .commit e ∧ s.offer d = some e ∧ s.grantable e = true := by
  unfold State.grantFor at h
  split at h
  · rename_i r hr
    refine .inl ⟨r, List.mem_of_find?_eq_some hr, (Option.some.inj h).symm, ?_⟩
    have := List.find?_some hr
    simpa [and_assoc] using this
  · split at h
    · rename_i row e hf ho
      obtain ⟨ho, hg⟩ := (Option.filter_eq_some_iff).1 ho
      split at h
      · exact .inr (.inl ⟨row, true, (Option.some.inj h).symm, hf, fun _ => ‹_›⟩)
      · exact .inr (.inr ⟨e, (Option.some.inj h).symm, ho, hg⟩)
    · exact .inr (.inl ⟨_, false, (Option.some.inj h).symm, ‹_›, by simp⟩)
    · rename_i e _ ho
      obtain ⟨ho, hg⟩ := (Option.filter_eq_some_iff).1 ho
      exact .inr (.inr ⟨e, (Option.some.inj h).symm, ho, hg⟩)
    · cases h

theorem State.frontFor_some {s : State} {d : Die} {row : Nat} (h : s.frontFor d = some row) :
    s.media.frontRead = some row ∧ rowOnDie d row = true := by
  unfold State.frontFor at h
  split at h
  · cases h
  · split at h
    · cases h; exact ⟨‹_›, ‹_›⟩
    · cases h

/-- An offer is the die's oldest entry, WAITING, while commits are allowed (R47, R48). -/
theorem State.offer_some {s : State} {d : Die} {e : Entry} (h : s.offer d = some e) :
    s.commitsAllowed = true ∧ s.queue.oldest d = some e ∧ e.progress = .waiting := by
  unfold State.offer at h
  split at h
  · split at h
    · cases h
    · split at h
      · cases h; exact ⟨‹_›, ‹_›, ‹_›⟩
      · cases h
  · cases h

/-- The die's oldest entry is in the queue and lies on the die. -/
theorem HoldQueue.oldest_some {q : HoldQueue} {d : Die} {e : Entry} (h : q.oldest d = some e) :
    e ∈ q.entries ∧ rowOnDie d e.row = true :=
  ⟨List.mem_of_find?_eq_some h, by simpa using List.find?_some h⟩

/-- What can be settled at a die without a grant (R75, R77). -/
theorem State.onceActions_cases {s : State} {d : Die} {a : Action} (h : a ∈ s.onceActions d) :
    (∃ r ∈ s.media.services, r.op.die = d ∧
      ((s.die d = .offline ∧ r.op.isProbe = true ∧ a = .startProbe r) ∨
       (s.die d = .offline ∧ r.op.isProbe = false ∧ a = .failService r) ∨
       (s.die d ≠ .offline ∧ r.op.isProbe = true ∧ a = .passProbe r))) ∨
    (s.die d = .offline ∧ ∃ row, s.frontFor d = some row ∧ a = .failFront row) ∨
    (s.die d = .offline ∧ ∃ e, s.offer d = some e ∧ a = .failCommit d) := by
  unfold State.onceActions at h
  rw [List.mem_append] at h
  rcases h with h | h
  · obtain ⟨r, hr, ha⟩ := List.mem_filterMap.1 h
    refine .inl ⟨r, hr, ?_⟩
    unfold State.serviceAction at ha
    split at ha
    · refine ⟨‹_›, ?_⟩
      split at ha <;> rename_i hd
      · split at ha <;> cases ha <;> simp_all
      · split at ha <;> cases ha; simp_all
      · split at ha <;> cases ha; simp_all
    · cases ha
  · split at h
    · rename_i hd
      rw [List.mem_append] at h
      rcases h with h | h
      · split at h
        · cases h
        · exact .inr (.inl ⟨hd, _, ‹_›, by simpa using h⟩)
      · split at h
        · cases h
        · exact .inr (.inr ⟨hd, _, ‹_›, by simpa using h⟩)
    · cases h
    · cases h

/-- A consequence that can be taken now. -/
def State.canTake (s : State) (a : Action) : Prop :=
  (∃ d g, s.die d = .idle ∧ s.grantFor d = some g ∧ a = .grant d g) ∨ ∃ d, a ∈ s.onceActions d

theorem State.grantAction_some {s : State} {d : Die} {a : Action} (h : s.grantAction d = some a) :
    ∃ g, s.die d = .idle ∧ s.grantFor d = some g ∧ a = .grant d g := by
  unfold State.grantAction at h
  split at h
  · obtain ⟨g, hg, rfl⟩ := Option.map_eq_some_iff.1 h
    exact ⟨g, ‹_›, hg, rfl⟩
  · cases h
  · cases h

/-- The picked consequence is one of those offered, and a choice is counted. -/
theorem State.performPicked_eq (s : State) (a : Action) (rest : List Action) :
    ∃ b ∈ a :: rest, ∃ n, (n = s.free ∨ n = s.free + 1) ∧ s.performPicked a rest = (s.withFree n).perform b := by
  unfold State.performPicked
  split
  · exact ⟨a, by simp, s.free, .inl rfl, by simp⟩
  · rename_i b l
    refine ⟨(a :: b :: l).getD (Config.freePick s.free % (a :: b :: l).length) a, ?_, s.free + 1, .inr rfl, rfl⟩
    rw [List.getD_eq_getElem?_getD]
    cases h : (a :: b :: l)[Config.freePick s.free % (a :: b :: l).length]? with
    | none => simp
    | some x => exact List.mem_of_getElem? h

/-- Where an action can be taken one is, and else the Service Controller's condition is looked at. -/
theorem State.micro_eq (s : State) :
    (∃ a, s.canTake a ∧ ∃ n, (n = s.free ∨ n = s.free + 1) ∧ s.micro = some ((s.withFree n).perform a)) ∨
    (∀ a, ¬ s.canTake a) ∧ s.micro = s.sequenceAction := by
  have grants : ∀ a, a ∈ allDies.filterMap s.grantAction ↔
      ∃ d g, s.die d = .idle ∧ s.grantFor d = some g ∧ a = .grant d g := by
    intro a
    rw [List.mem_filterMap]
    constructor
    · rintro ⟨d, -, hd⟩; exact ⟨d, State.grantAction_some hd⟩
    · rintro ⟨d, g, h1, h2, rfl⟩
      exact ⟨d, by fin_cases d <;> decide, by simp [State.grantAction, h1, h2]⟩
  have once : ∀ a, a ∈ allDies.flatMap s.onceActions ↔ ∃ d, a ∈ s.onceActions d := by
    intro a
    rw [List.mem_flatMap]
    exact ⟨fun ⟨d, _, h⟩ => ⟨d, h⟩, fun ⟨d, h⟩ => ⟨d, by fin_cases d <;> decide, h⟩⟩
  unfold State.micro
  cases hg : allDies.filterMap s.grantAction with
  | cons a rest =>
    rw [hg] at grants
    refine .inl ?_
    dsimp only
    split
    · exact ⟨a, .inl ((grants a).1 (by simp)), s.free, .inl rfl, by simp⟩
    · obtain ⟨b, hb, n, hn, he⟩ := s.performPicked_eq a rest
      exact ⟨b, .inl ((grants b).1 hb), n, hn, by rw [he]⟩
  | nil =>
    rw [hg] at grants
    cases ho : allDies.flatMap s.onceActions with
    | cons a rest =>
      rw [ho] at once
      obtain ⟨b, hb, n, hn, he⟩ := s.performPicked_eq a rest
      exact .inl ⟨b, .inr ((once b).1 hb), n, hn, by simp only [he]⟩
    | nil =>
      rw [ho] at once
      refine .inr ⟨?_, rfl⟩
      rintro a (h | h)
      · exact absurd ((grants a).2 h) (by simp)
      · exact absurd ((once a).2 h) (by simp)

/-- One consequence is an action that can be taken, with the free counter advanced or not, or the Service Controller's
own condition. -/
theorem State.micro_cases {s t : State} (h : s.micro = some t) :
    (∃ a n, s.canTake a ∧ t = (s.withFree n).perform a) ∨ s.sequenceAction = some t := by
  rcases s.micro_eq with ⟨a, ha, n, -, he⟩ | ⟨-, he⟩
  · rw [he] at h; cases h; exact .inl ⟨a, n, ha, rfl⟩
  · exact .inr (he ▸ h)

/-- What the Service Controller does of its own accord (R183, R137). -/
theorem State.sequenceAction_cases {s t : State} (h : s.sequenceAction = some t) :
    (s.control.sequence = .lineWait ∧ s.queue.entries = [] ∧ t = s.beginScan .lineReset) ∨
    (s.control.sequence = .drain ∧ s.drainEnded = true ∧ t = s.endDrain) := by
  unfold State.sequenceAction at h
  split at h <;> first | cases h | (split at h <;> cases h; simp_all)

/-! ### Induction over the consequences -/

theorem pump_keeps {P : State → Prop} (hm : ∀ s t, P s → s.micro = some t → P t) (n : Nat) (s : State) (hs : P s) :
    P (pump n s) := by
  induction n generalizing s with
  | zero => exact hs
  | succ n ih =>
    unfold pump
    split
    · exact hs
    · exact ih _ (hm _ _ hs ‹_›)

/-- A condition every consequence keeps, and the handing of the lines, holds after the event settles. -/
theorem State.settled_keeps {P : State → Prop} (hm : ∀ s t, P s → s.micro = some t → P t)
    (hl : ∀ s : State, P s → P s.handLines) (s : State) (hs : P s) : P s.settled :=
  hl _ (pump_keeps hm _ _ hs)

/-- A condition that each kind of consequence keeps is kept by every consequence. -/
theorem State.micro_keeps {P : State → Prop}
    (free : ∀ s n, P s → P (s.withFree n))
    (service : ∀ s d r, P s → s.die d = .idle → r ∈ s.media.services → r.op.die = d → r.op.isProbe = false →
      s.serviceUngated r = true → P (s.startService d r))
    (front : ∀ s d row contested, P s → s.die d = .idle → s.media.frontRead = some row → rowOnDie d row = true →
      (contested = true → (s.media.dies.get d).patience < s.control.settings.patience) →
      P (s.perform (.grant d (.front row contested))))
    (commit : ∀ s d e, P s → s.die d = .idle → s.offer d = some e → s.grantable e = true → P (s.startCommit d e))
    (probe : ∀ s r, P s → r ∈ s.media.services → s.die r.op.die = .offline → r.op.isProbe = true →
      P (s.startService r.op.die r))
    (pass : ∀ s r, P s → r ∈ s.media.services → s.die r.op.die ≠ .offline → r.op.isProbe = true →
      P ((s.takeRequest r).serviceDone r (.pass [])))
    (fail : ∀ s r, P s → r ∈ s.media.services → s.die r.op.die = .offline → r.op.isProbe = false →
      P (((s.takeRequest r).countFailure).serviceDone r (.fail .offline)))
    (failFront : ∀ s d row, P s → s.die d = .offline → s.media.frontRead = some row → rowOnDie d row = true →
      P (((s.withMedia { s.media with frontRead := none }).countFailure).frontReadDone [] true))
    (failCommit : ∀ s d e, P s → s.die d = .offline → s.offer d = some e →
      P ((s.countFailure).commitDone d (.fail .offline)))
    (scan : ∀ s, P s → s.control.sequence = .lineWait → s.queue.entries = [] → P (s.beginScan .lineReset))
    (drain : ∀ s, P s → s.control.sequence = .drain → s.drainEnded = true → P s.endDrain)
    (s t : State) (hs : P s) (h : s.micro = some t) : P t := by
  rcases State.micro_cases h with ⟨a, n, ha, rfl⟩ | h
  · have hn := free s n hs
    rcases ha with ⟨d, g, hd, hg, rfl⟩ | ⟨d, ha⟩
    · rcases State.grantFor_cases hg with ⟨r, hr, rfl, h1, h2, h3⟩ | ⟨row, c, rfl, hf, hc⟩ | ⟨e, rfl, ho, hg⟩
      · exact service _ d r hn hd hr h1 h2 h3
      · obtain ⟨h1, h2⟩ := State.frontFor_some hf
        exact front _ d row c hn hd h1 h2 hc
      · exact commit _ d e hn hd ho hg
    · rcases State.onceActions_cases ha with
        ⟨r, hr, rfl, ⟨h1, h2, rfl⟩ | ⟨h1, h2, rfl⟩ | ⟨h1, h2, rfl⟩⟩ | ⟨h1, row, hf, rfl⟩ | ⟨h1, e, ho, rfl⟩
      · exact probe _ r hn hr h1 h2
      · exact fail _ r hn hr h1 h2
      · exact pass _ r hn hr h1 h2
      · obtain ⟨h2, h3⟩ := State.frontFor_some hf
        exact failFront _ d row hn h1 h2 h3
      · exact failCommit _ d e hn h1 ho
  · rcases State.sequenceAction_cases h with ⟨h1, h2, rfl⟩ | ⟨h1, h2, rfl⟩
    · exact scan s hs h1 h2
    · exact drain s hs h1 h2

/-! ### Frames of the consequences -/

theorem State.sequenceAction_frame {s t : State} (h : s.sequenceAction = some t) :
    t.tick = s.tick ∧ t.pins = s.pins ∧ t.pending = s.pending := by
  rcases State.sequenceAction_cases h with ⟨-, -, rfl⟩ | ⟨-, -, rfl⟩ <;> simp

theorem State.micro_frame {s t : State} (h : s.micro = some t) :
    t.tick = s.tick ∧ t.pins = s.pins ∧ t.pending = s.pending := by
  rcases State.micro_cases h with ⟨a, n, -, rfl⟩ | h
  · simp
  · exact State.sequenceAction_frame h

@[simp] theorem State.settled_frame (s : State) :
    s.settled.tick = s.tick ∧ s.settled.pins = s.pins ∧ s.settled.pending = s.pending := by
  refine State.settled_keeps (P := fun t => t.tick = s.tick ∧ t.pins = s.pins ∧ t.pending = s.pending) ?_ ?_ s
    ⟨rfl, rfl, rfl⟩
  · intro u t hu h
    obtain ⟨h1, h2, h3⟩ := State.micro_frame h
    simp_all
  · intro u hu
    simpa using hu

/-! ### Consequences once the Service Controller has stopped a sequence (R133, R148) -/

/-- No sequence runs, the queue is empty, no waiting request brings a result that is acted on, and every block but the front
and the dies is as in `x`. -/
structure State.StoppedAs (x t : State) : Prop where
  control : t.control = x.control
  queue : t.queue = x.queue
  drop : t.drop = x.drop
  gauge : t.gauge = x.gauge
  report : t.report = x.report
  sequence : x.control.sequence = .none
  entries : x.queue.entries = []
  services : ∀ r ∈ t.media.services, r.standing = .disregarded ∧ r.op.isNoteWrite = false

/-- A service operation other than a note write changes the dies and the waiting requests alone. -/
theorem State.startService_media (s : State) (d : Die) {r : ServiceRequest} (h : r.op.isNoteWrite = false) :
    ∃ m, s.startService d r = s.withMedia m ∧ m.services = s.media.services.erase r := by
  cases ho : r.op <;> first | exact ⟨_, by simp only [State.startService, ho]; rfl, rfl⟩ | simp [ho, ServiceOp.isNoteWrite] at h

theorem State.serviceDone_disregarded (s : State) {r : ServiceRequest} (h : r.standing = .disregarded)
    (result : MediaResult) : s.serviceDone r result = s := by
  simp [State.serviceDone, h]

theorem State.StoppedAs.withMedia {x s : State} (h : x.StoppedAs s) (m : Scheduler)
    (hm : ∀ r ∈ m.services, r ∈ s.media.services) : x.StoppedAs (s.withMedia m) :=
  { h with services := fun r hr => h.services r (hm r hr) }

theorem State.StoppedAs.withFront {x s : State} (h : x.StoppedAs s) (f : FrontPort) : x.StoppedAs (s.withFront f) :=
  { h with }

theorem State.StoppedAs.countFailure {x s : State} (h : x.StoppedAs s) : x.StoppedAs s.countFailure :=
  h.withMedia _ (fun _ hr => hr)

theorem State.StoppedAs.frontReadDone {x s : State} (h : x.StoppedAs s) (base : Page) (failed : Bool) :
    x.StoppedAs (s.frontReadDone base failed) := by
  unfold State.frontReadDone
  split
  · exact h.withFront _
  all_goals exact h

theorem State.StoppedAs.offer {x s : State} (h : x.StoppedAs s) (d : Die) : s.offer d = none := by
  simp [State.offer, HoldQueue.oldest, h.queue, h.entries]

/-- The consequences of a stop leave every block but the front and the dies. -/
theorem State.StoppedAs.settled {x s : State} (h : x.StoppedAs s) : x.StoppedAs s.settled := by
  have started : ∀ (s : State) (d : Die) (r : ServiceRequest), x.StoppedAs s → r ∈ s.media.services →
      x.StoppedAs (s.startService d r) := by
    intro s d r h hr
    obtain ⟨m, hm, hs⟩ := s.startService_media d (h.services r hr).2
    rw [hm]
    exact h.withMedia m (fun r' h' => List.mem_of_mem_erase (hs ▸ h'))
  refine State.settled_keeps ?_ (fun s h => h.withMedia _ (fun r hr => hr)) s h
  refine State.micro_keeps (fun s n h => { h with }) (fun s d r h _ hr _ _ _ => started s d r h hr) ?_ ?_
    (fun s r h hr _ _ => started s _ r h hr) ?_ ?_ ?_ ?_ ?_ ?_
  · intro s d row contested h _ _ _ _
    cases contested
    · exact h.withMedia _ (fun r hr => hr)
    · exact h.withMedia _ (fun r hr => hr)
  · intro s d e h _ ho
    simp [h.offer d] at ho
  · intro s r h hr _ _
    rw [State.serviceDone_disregarded _ (h.services r hr).1]
    exact h.withMedia _ (fun r' h' => List.mem_of_mem_erase h')
  · intro s r h hr _ _
    rw [State.serviceDone_disregarded _ (h.services r hr).1]
    exact h.withMedia _ (fun r' h' => List.mem_of_mem_erase h')
  · intro s d row h _ _ _
    exact (h.withMedia { s.media with frontRead := none } (fun r hr => hr)).countFailure.frontReadDone _ _
  · intro s d e h _ ho
    simp [h.offer d] at ho
  · intro s h hs
    rw [h.control, h.sequence] at hs
    cases hs
  · intro s h hs
    rw [h.control, h.sequence] at hs
    cases hs

end Sys2Proof.Machine
end

