-- ==== Sys2Proof/Laws/Queue.lean ====
section
/-! SUPPORT. The Hold Queue, the address phase and the Die Scheduler's tables: one lemma per shared operation over lists
(R8, R19, R35, R47, R50, R54, R57, R59, R65). -/

namespace Sys2Proof.Machine

/-! ### The address phase -/

/-- A translated operation keeps its kind and column. -/
theorem screen_passed {v : Settings} {installed : Nat} {kind : OpKind} {a : Address} {op : Translated}
    (h : screen v installed kind a = .passed op) : op.kind = kind ∧ op.column = a.column ∧ op.through = a.through := by
  unfold screen at h
  split at h
  · cases h
  unfold translate at h
  repeat' split at h
  all_goals try cases h
  · unfold translateAbsolute at h
    dsimp only at h
    repeat' split at h
    all_goals first | (cases h; done) | (cases h; exact ⟨rfl, rfl, rfl⟩)
  · unfold translateWindowed at h
    dsimp only at h
    repeat' split at h
    all_goals try cases h
    · unfold translateReport at h
      dsimp only at h
      repeat' split at h
      all_goals first | (cases h; done) | (cases h; exact ⟨rfl, rfl, rfl⟩)
    · unfold translateProfile at h
      try dsimp only at h
      repeat' split at h
      all_goals first | (cases h; done) | (cases h; exact ⟨rfl, rfl, rfl⟩)
    · unfold translateSurvey at h
      try dsimp only at h
      repeat' split at h
      all_goals first | (cases h; done) | (cases h; exact ⟨rfl, rfl, rfl⟩)

/-- The Translator never refuses with cause QUALIFIER (R20, R25). -/
theorem translate_ne_qualifier (v : Settings) (installed : Nat) (kind : OpKind) (a : Address) :
    Machine.translate v installed kind a ≠ .refused .qualifier := by
  unfold Machine.translate translateAbsolute translateWindowed translateReport translateProfile translateSurvey
  repeat' (first | split | dsimp only)
  all_goals simp_all

/-! ### The oldest entry of a die (R47) -/

/-- A die's oldest entry splits the queue, and every list operation on it acts there. -/
theorem oldest_split {older younger : List Entry} {e : Entry} {d : Die} (he : rowOnDie d e.row = true)
    (ho : ∀ x ∈ older, rowOnDie d x.row = false) :
    (older ++ e :: younger).find? (fun e => rowOnDie d e.row) = some e ∧
    removeOldest d (older ++ e :: younger) = older ++ younger ∧
    ∀ f, updateOldest d f (older ++ e :: younger) = older ++ f e :: younger := by
  induction older with
  | nil => simp [he, removeOldest, updateOldest]
  | cons a l ih =>
    have ha := ho a (by simp)
    obtain ⟨i1, i2, i3⟩ := ih (fun x hx => ho x (by simp [hx]))
    refine ⟨?_, ?_, ?_⟩
    · simp only [List.cons_append, List.find?_cons, ha]; exact i1
    · simp [removeOldest, ha, i2]
    · intro f; simp [updateOldest, ha, i3]

/-- Conversely, a die with an oldest entry has such a split. -/
theorem oldest_exists {l : List Entry} {e : Entry} {d : Die} (h : l.find? (fun e => rowOnDie d e.row) = some e) :
    ∃ older younger, l = older ++ e :: younger ∧ rowOnDie d e.row = true ∧ ∀ x ∈ older, rowOnDie d x.row = false := by
  obtain ⟨h1, older, younger, rfl, h2⟩ := List.find?_eq_some_iff_append.1 h
  exact ⟨older, younger, rfl, by simpa using h1, by simpa using h2⟩

theorem updateOldest_length (d : Die) (f : Entry → Entry) (l : List Entry) : (updateOldest d f l).length = l.length := by
  induction l with
  | nil => rfl
  | cons a l ih => unfold updateOldest; split <;> simp [ih]

/-! ### The youngest entry (R45, R54) -/

/-- An attached entry WAITING behind POSTED entries is the one that is withdrawn, and nothing else leaves. -/
theorem withdraw_split {older : List Entry} {e : Entry} (ho : ∀ x ∈ older, x.disposition = .posted)
    (he : e.withdrawable = true) :
    (older ++ [e]).find? Entry.withdrawable = some e ∧
    (older ++ [e]).filter (fun x => !x.withdrawable) = older := by
  have h0 : ∀ x ∈ older, x.withdrawable = false := by
    intro x hx; simp [Entry.withdrawable, Entry.isAttached, ho x hx]
  have h1 : older.find? Entry.withdrawable = none := by
    rw [List.find?_eq_none]; intro x hx; simp [h0 x hx]
  refine ⟨by simp [List.find?_append, h1, he], ?_⟩
  rw [List.filter_append, List.filter_eq_self.2 (fun x hx => by simp [h0 x hx])]
  simp [he]

/-- Detaching leaves POSTED entries as they are. -/
theorem map_detachEntry_posted {l : List Entry} (h : ∀ x ∈ l, x.disposition = .posted) : l.map detachEntry = l := by
  conv_rhs => rw [← List.map_id l]
  exact List.map_congr_left (fun x hx => by simp [detachEntry, h x hx])

/-! ### The failed-row table (R57) -/

theorem addFailed_length {table : List FailedRow} (r : FailedRow) (h : table.length ≤ 16) :
    (addFailed table r).1.length ≤ 16 := by
  have ha : (appendFailed table r).1.length ≤ 16 := by unfold appendFailed; split <;> simp <;> omega
  unfold addFailed
  split
  · split
    · exact h
    · exact ha
  · split
    · exact h
    · split
      · rename_i hb
        have : (table.filter (fun x => x.block != r.block)).length < table.length := by
          rw [List.length_filter_lt_length_iff_exists]
          obtain ⟨x, hx, hxb⟩ := List.any_eq_true.1 hb
          exact ⟨x, hx, by simpa using hxb⟩
        simp
        omega
      · exact ha

theorem appendFailed_pairwise {table : List FailedRow} {r : FailedRow}
    (h : table.Pairwise (fun a b => ¬ a.overlaps b)) (hr : ∀ x ∈ table, ¬ x.overlaps r) :
    (appendFailed table r).1.Pairwise (fun a b => ¬ a.overlaps b) := by
  unfold appendFailed
  split
  · exact List.pairwise_append.2 ⟨h, List.pairwise_singleton _ _, by simpa using hr⟩
  · exact List.pairwise_append.2 ⟨h.sublist (List.drop_sublist _ _), List.pairwise_singleton _ _, by
      intro x hx y hy
      rw [List.mem_singleton.1 hy]
      exact hr x (List.mem_of_mem_drop hx)⟩

/-- An addition covers no row twice. -/
theorem addFailed_pairwise {table : List FailedRow} (r : FailedRow)
    (h : table.Pairwise (fun a b => ¬ a.overlaps b)) :
    (addFailed table r).1.Pairwise (fun a b => ¬ a.overlaps b) := by
  unfold addFailed
  split
  · rename_i page hp
    split
    · exact h
    · rename_i hn
      refine appendFailed_pairwise h ?_
      intro x hx ⟨hb, ho⟩
      apply hn
      rw [List.any_eq_true]
      refine ⟨x, hx, ?_⟩
      rw [hp] at ho
      rcases ho with ho | ho | ho <;> simp_all
  · rename_i hp
    split
    · exact h
    · split
      · refine List.pairwise_append.2 ⟨h.sublist List.filter_sublist, List.pairwise_singleton _ _, ?_⟩
        intro x hx y hy
        rw [List.mem_singleton.1 hy]
        rintro ⟨hb, -⟩
        simpa [hb] using (List.mem_filter.1 hx).2
      · rename_i hn
        refine appendFailed_pairwise h ?_
        rintro x hx ⟨hb, -⟩
        exact hn (List.any_eq_true.2 ⟨x, hx, by simpa using hb⟩)

theorem clearFailed_sublist (table : List FailedRow) (e : Entry) : (clearFailed table e).Sublist table := by
  unfold clearFailed; split <;> exact List.filter_sublist

/-! ### The snoop (R59, R61) -/

/-- What `afterErase` answers: the entries younger than the youngest queued ERASE of the block. -/
theorem afterErase_some {block : Nat} {l young : List Entry} (h : afterErase block l = some young) :
    ∃ older e, l = older ++ e :: young ∧ e.kind = .erase ∧ e.block = block ∧
      ∀ x ∈ young, ¬ (x.kind = .erase ∧ x.block = block) := by
  induction l with
  | nil => cases h
  | cons a l ih =>
    unfold afterErase at h
    split at h
    · rename_i y hy
      cases h
      obtain ⟨older, e, rfl, h1, h2, h3⟩ := ih hy
      exact ⟨a :: older, e, rfl, h1, h2, h3⟩
    · rename_i hn
      split at h
      · rename_i ha
        cases h
        refine ⟨[], a, rfl, ha.1, ha.2, ?_⟩
        intro x hx hxe
        have : ∀ l : List Entry, x ∈ l → afterErase block l ≠ none := by
          intro l
          induction l with
          | nil => simp
          | cons b l ihl =>
            intro hm
            unfold afterErase
            split
            · simp
            · rename_i hb
              rcases List.mem_cons.1 hm with rfl | hm
              · simp [hxe]
              · exact absurd hb (ihl hm)
        exact this _ hx hn
      · cases h

theorem afterErase_none {block : Nat} {l : List Entry} (h : afterErase block l = none) :
    ∀ x ∈ l, ¬ (x.kind = .erase ∧ x.block = block) := by
  induction l with
  | nil => simp
  | cons a l ih =>
    unfold afterErase at h
    split at h
    · cases h
    · rename_i hn
      split at h
      · cases h
      · intro x hx
        rcases List.mem_cons.1 hx with rfl | hx
        · assumption
        · exact ih hn x hx

/-! ### Dies -/

@[simp] theorem PerDie.set_set {α : Type} (v : PerDie α) (d : Die) (x y : α) : (v.set d x).set d y = v.set d y := by
  fin_cases d <;> rfl

/-- With the lines lawful and this die outside its transfer phases, a new transfer of its operation is the only one
that joins (R65). -/
theorem State.joins_eq {s : State} {d : Die} {phase : Phase} {op : MediaOp} {lines : List Die} (h : s.SchedulerLaw)
    (hp : phase.isTransfer = true) (hw : ∀ e, e ≠ d → (e ∈ lines ↔ e ∈ s.media.lines)) (hd : d ∉ lines) :
    allDies.filter (fun e =>
      (((s.withMedia { s.media with lines := lines }).setPhase d op phase).die e).inTransfer && !lines.contains e) =
      [d] := by
  have key : ∀ e, ((((s.withMedia { s.media with lines := lines }).setPhase d op phase).die e).inTransfer &&
      !lines.contains e) = decide (e = d) := by
    intro e
    have ht := h.transfers e
    by_cases hed : e = d
    · subst hed
      have : ((s.withMedia { s.media with lines := lines }).setPhase e op phase).die e =
          .busy { op with phase := phase } := by
        fin_cases e <;> rfl
      simp [this, DieState.inTransfer, hp, hd]
    · have : ((s.withMedia { s.media with lines := lines }).setPhase d op phase).die e = s.die e := by
        fin_cases d <;> fin_cases e <;> first | rfl | exact absurd rfl hed
      have := hw e hed
      cases hh : (s.die e).inTransfer <;> simp_all
  rw [List.filter_congr (fun e _ => key e)]
  fin_cases d <;> rfl

/-! ### What the failed-row table and a composition cover (R57, R58, R61) -/

theorem HoldQueue.covered_iff (q : HoldQueue) (row : Nat) : q.covered row = true ↔
    ∃ r ∈ q.failedRows, r.block = row / 128 ∧ (r.page = none ∨ r.page = some (row % 128)) := by
  simp [HoldQueue.covered, FailedRow.covers]

theorem rowOnDie_iff (d : Die) (row : Nat) : rowOnDie d row = true ↔ row / 1048576 = d.val := by
  simp [rowOnDie, dieOfRow, Nat.div_div_eq_div_mul]

theorem afterErase_some_iff (block : Nat) (entries young : List Entry) :
    afterErase block entries = some young ↔ ∃ older e, entries = older ++ e :: young ∧
      (e.kind = .erase ∧ e.block = block) ∧ ∀ x ∈ young, ¬ (x.kind = .erase ∧ x.block = block) := by
  constructor
  · intro h
    obtain ⟨older, e, h1, h2, h3, h4⟩ := afterErase_some h
    exact ⟨older, e, h1, ⟨h2, h3⟩, h4⟩
  · rintro ⟨older, e, rfl, he, hy⟩
    induction older with
    | nil =>
      have : afterErase block young = none := by
        cases hn : afterErase block young with
        | none => rfl
        | some z =>
          obtain ⟨o, x, h1, h2, h3, -⟩ := afterErase_some hn
          exact absurd ⟨h2, h3⟩ (hy x (by simp [h1]))
      simp only [List.nil_append, afterErase, this]
      exact if_pos he
    | cons a l ih => simp only [List.cons_append, afterErase, ih]

theorem readCell_composeOver {base : Page} (row : Nat) {entries : List Entry} (c : Nat) (hb : Page.Canonical base)
    (he : ∀ e ∈ entries, Page.Canonical e.image) :
    readCell (composeOver base row entries) c =
      ((entries.filter (fun e => decide (e.kind = .program) && decide (e.row = row))).map
        (fun e => readCell e.image c)).foldl (· &&& ·) (readCell base c) := by
  have h : ∀ e ∈ entries.filter (fun e => decide (e.kind = .program) && decide (e.row = row)), Page.Canonical e.image :=
    fun e h => he e (List.mem_filter.1 h).1
  unfold composeOver
  revert h
  generalize entries.filter _ = l
  intro h
  induction l generalizing base with
  | nil => rfl
  | cons a l ih =>
    simp only [List.foldl_cons, List.map_cons]
    rw [ih (hb.andPage _) (fun e h' => h e (List.mem_cons_of_mem _ h')), readCell_andPage hb (h a (List.mem_cons_self ..))]

end Sys2Proof.Machine
end

