-- ==== Sys2Proof/Laws/Fuel.lean ====
section
/-! SUPPORT. Every consequence of an event leaves fewer consequences to take, so an event settles: State.fuel is enough. -/

namespace Sys2Proof.Machine

/-! ### What the count of requests depends on -/

theorem State.requests_le {s t : State} (hm : t.media = s.media)
    (hq : t.queue.entries.length ≤ s.queue.entries.length) : t.requests ≤ s.requests := by
  simp only [State.requests, State.die, hm]
  omega

@[simp] theorem State.requests_withControl (s : State) (c : Controller) : (s.withControl c).requests = s.requests := rfl
@[simp] theorem State.requests_withSequence (s : State) (q : Sequence) : (s.withSequence q).requests = s.requests := rfl
@[simp] theorem State.requests_withServiceState (s : State) (v : ServiceState) :
    (s.withServiceState v).requests = s.requests := rfl
@[simp] theorem State.requests_withFront (s : State) (f : FrontPort) : (s.withFront f).requests = s.requests := rfl
@[simp] theorem State.requests_withFree (s : State) (n : Nat) : (s.withFree n).requests = s.requests := rfl
@[simp] theorem State.fuel_withFree (s : State) (n : Nat) : (s.withFree n).fuel = s.fuel := rfl

theorem State.requests_request (s : State) (op : ServiceOp) : (s.request op).requests = s.requests + op.load := by
  simp only [State.requests, State.request, State.die, State.withMedia_media, State.withMedia_queue, List.map_append,
    List.sum_append, List.map_cons, List.map_nil, List.sum_cons, List.sum_nil]
  omega

theorem State.requests_takeRequest (s : State) {r : ServiceRequest} (hr : r ∈ s.media.services) :
    (s.takeRequest r).requests + r.op.load = s.requests := by
  have := List.sum_map_erase (fun r : ServiceRequest => r.op.load) hr
  simp only [State.requests, State.takeRequest, State.die, State.withMedia_media, State.withMedia_queue]
  omega

theorem State.requests_countFailure (s : State) : s.countFailure.requests = s.requests := rfl

/-- A die that was not BUSY becomes BUSY. -/
theorem State.requests_startMedia (s : State) (d : Die) (h : (s.die d).free = 1) (kind : MediaKind) (row : Option Nat)
    (image : Page) (requester : Requester) : (s.startMedia d kind row image requester).requests + 1 = s.requests := by
  fin_cases d <;>
    simp_all [State.requests, State.startMedia, State.withDie, State.die, PerDie.set, PerDie.get, DieState.free] <;> omega

theorem State.requests_withPatience (s : State) (d : Die) (n : Nat) : (s.withPatience d n).requests = s.requests := by
  fin_cases d <;> rfl

theorem State.die_withPatience (s : State) (d e : Die) (n : Nat) : (s.withPatience d n).die e = s.die e := by
  fin_cases d <;> fin_cases e <;> rfl

/-! ### The Service Controller's operations -/

theorem State.requests_openNote_fuel (s : State) (o : Opening) : (s.openNote o).fuel = s.requests + 1 := by
  unfold State.openNote
  split <;> simp [State.fuel, State.requests_request, ServiceOp.load, State.withSequence, Sequence.load]

theorem State.finishOpening_fuel (s : State) (o : Opening) : (s.finishOpening o).fuel ≤ s.requests := by
  have h : (s.finishOpening o).control.sequence = .none := by cases o <;> rfl
  have := State.requests_le (t := s.finishOpening o) (s := s) (by simp) (by simp)
  simpa [State.fuel, h, Sequence.load] using this

theorem State.openOrFinish_fuel (s : State) (o : Opening) : (s.openOrFinish o).fuel ≤ s.requests + 1 := by
  unfold State.openOrFinish
  split
  · exact (s.requests_openNote_fuel o).le
  · exact (s.finishOpening_fuel o).trans (Nat.le_succ _)

theorem State.loadRows_entries (s : State) (rows : List FailedRow) :
    (s.loadRows rows).queue.entries = s.queue.entries := by
  unfold State.loadRows
  induction rows generalizing s with
  | nil => rfl
  | cons r rows ih => exact ih _

theorem State.settleNote_fuel (s : State) (best : Option (Nat × Page)) : (s.settleNote best).fuel ≤ s.requests + 1 := by
  unfold State.settleNote
  split
  · exact (State.openOrFinish_fuel _ _).trans (by gcongr; exact State.requests_le (by simp) (by simp))
  · split
    · refine (State.openOrFinish_fuel _ _).trans (Nat.add_le_add_right ?_ 1)
      exact State.requests_le (by simp) (by simp [State.loadRows_entries])
    · exact (State.openOrFinish_fuel _ _).trans (by gcongr; exact State.requests_le (by simp) (by simp))

theorem State.beginNoteScan_fuel (s : State) : s.beginNoteScan.fuel ≤ s.requests + 2 := by
  unfold State.beginNoteScan
  split
  · simp [State.fuel, State.requests_request, ServiceOp.load, State.withSequence, Sequence.load]
  · exact (State.settleNote_fuel _ _).trans (by simp [State.loseNote])

theorem State.probeNext_fuel (s : State) (dies : List Die) : (s.probeNext dies).fuel ≤ s.requests + (2 + 2 * dies.length) := by
  cases dies with
  | nil => exact s.beginNoteScan_fuel
  | cons d rest =>
    simp [State.probeNext, State.fuel, State.requests_request, ServiceOp.load, State.withSequence, Sequence.load]
    omega

theorem State.scanEnded_fuel (s : State) (p : ScanFor) (r : ScanResult) : (s.scanEnded p r).fuel ≤ s.requests + 10 := by
  unfold State.scanEnded
  split
  · have h1 := State.probeNext_fuel (s.applyAtStartUp r) (addedDies (s.applyAtStartUp r).control.installed)
    have h2 : (addedDies (s.applyAtStartUp r).control.installed).length ≤ 4 := List.length_filter_le _ _
    have h3 := State.requests_le (t := s.applyAtStartUp r) (s := s) (by simp) (by simp)
    dsimp only
    omega
  · have h := State.requests_le (t := (s.applyAtLineReset r).lineRecord.enterService) (s := s) (by simp) (by simp)
    have e : (s.applyAtLineReset r).lineRecord.enterService.control.sequence = .none := rfl
    simp only [State.fuel, e, Sequence.load]
    omega

theorem State.beginScan_fuel (s : State) (p : ScanFor) : (s.beginScan p).fuel ≤ s.requests + 11 := by
  have h1 : ((s.withSequence (.profileScan p 0 none 0)).request (.profileRead 0)).fuel ≤ s.requests + 11 := by
    simp [State.fuel, State.requests_request, ServiceOp.load, State.withSequence, Sequence.load]
  have h2 : (s.scanEnded p .unread).fuel ≤ s.requests + 11 := (s.scanEnded_fuel p _).trans (Nat.le_succ _)
  unfold State.beginScan
  cases p <;> dsimp only <;> split <;> assumption

theorem State.beginRecovery_fuel (s : State) : s.beginRecovery.fuel ≤ s.requests + 1 := by
  refine (State.openOrFinish_fuel _ _).trans (Nat.add_le_add_right (State.requests_le ?_ ?_) 1) <;>
    simp [State.recoverDrops, State.recoverSettings, State.recoverCounters] <;> (repeat' split) <;> simp

theorem State.enterSpent_fuel (s : State) : s.enterSpent.fuel ≤ s.requests + 1 := by
  unfold State.enterSpent
  dsimp only
  split
  · exact (State.beginRecovery_fuel _).trans (by simp)
  · simp [State.fuel, State.withServiceState, State.withSequence, Sequence.load]

theorem State.endFlush_fuel (s : State) (o : FlushNoteOutcome) : (s.endFlush o).fuel ≤ s.requests + 1 :=
  State.enterSpent_fuel _

theorem foldl_reportUnwritten_entries (c : CommitFailCause) (w : Departure) (l : List Entry) (s : State) :
    (l.foldl (fun acc e => acc.reportUnwritten e c w) s).queue.entries = s.queue.entries := by
  induction l generalizing s with
  | nil => rfl
  | cons e l ih =>
    rw [List.foldl_cons, ih]
    simp [State.reportUnwritten, State.addFailedRow]

theorem State.loseEntries_entries (s : State) : s.loseEntries.queue.entries = [] := by
  simp [State.loseEntries, foldl_reportUnwritten_entries]

theorem State.endDrain_fuel (s : State) : s.endDrain.fuel ≤ s.requests + 3 := by
  have h := State.requests_le (t := s.loseEntries) (s := s) (by simp) (by simp [State.loseEntries_entries])
  unfold State.endDrain
  dsimp only
  split
  · simp [State.fuel, State.requests_request, ServiceOp.load, State.withSequence, Sequence.load]
    omega
  · have := State.endFlush_fuel s.loseEntries .skipped
    omega

theorem State.noteWritten_requests (s : State) (op : ServiceOp) (r : MediaResult) :
    (s.noteWritten op r).requests = s.requests := by
  unfold State.noteWritten
  split
  · rfl
  · split <;> rfl

theorem State.noteWritten_fuel (s : State) (op : ServiceOp) (r : MediaResult) : (s.noteWritten op r).fuel = s.fuel := by
  unfold State.noteWritten
  split
  · rfl
  · split <;> rfl

/-- A result that is handed on at once: a pass without bytes, or a failure with cause OFFLINE. -/
theorem State.sequenceResult_fuel (s : State) (op : ServiceOp) (r : MediaResult) (h : r = .pass [] ∨ r = .fail .offline) :
    (s.sequenceResult op r).fuel ≤ s.fuel + (if r = .pass [] then 1 else 0) := by
  unfold State.sequenceResult
  split <;> rename_i hq
  case h_3 => exact (s.beginScan_fuel _).trans (by simp only [State.fuel, hq, Sequence.load]; omega)
  case h_4 =>
    rcases h with rfl | rfl
    · exact (s.scanEnded_fuel _ _).trans (by simp only [State.fuel, hq, Sequence.load]; omega)
    · exact (s.scanEnded_fuel _ _).trans (by simp only [State.fuel, hq, Sequence.load]; omega)
  case h_5 => exact (s.probeNext_fuel _).trans (by simp only [State.fuel, hq, Sequence.load]; omega)
  case h_6 =>
    rcases h with rfl | rfl
    · exact (State.settleNote_fuel _ _).trans (by simp only [State.fuel, hq, Sequence.load, State.requests_withControl]; omega)
    · exact (State.settleNote_fuel _ _).trans (by
        simp only [State.fuel, hq, Sequence.load, State.loseNote, State.requests_withControl]; omega)
  case h_7 =>
    rcases h with rfl | rfl
    · refine (State.openOrFinish_fuel _ _).trans ?_
      rw [State.noteWritten_requests]
      simp [State.fuel]
    · have : (s.noteWritten op (.fail .offline)).openOrFinish = (s.noteWritten op (.fail .offline)).finishOpening := by
        funext o; rfl
      rw [this]
      refine (State.finishOpening_fuel _ _).trans ?_
      rw [State.noteWritten_requests]
      simp [State.fuel]
  case h_8 =>
    refine (State.finishOpening_fuel _ _).trans ?_
    rw [State.noteWritten_requests]
    simp only [State.fuel]
    omega
  case h_9 =>
    rename_i rest
    cases rest with
    | nil => simp [State.lineProbeNext, State.fuel, hq, State.withSequence, Sequence.load]
    | cons d rest =>
      simp [State.lineProbeNext, State.fuel, hq, State.withSequence, Sequence.load, State.requests_request, ServiceOp.load]
      omega
  case h_12 =>
    refine (State.endFlush_fuel _ _).trans ?_
    rw [State.noteWritten_requests]
    simp only [State.fuel, hq, Sequence.load]
    omega
  all_goals exact Nat.le_add_right _ _

theorem State.requests_withdrawNotes (s : State) : (s.withMedia s.media.withdrawNotes).requests ≤ s.requests := by
  have h : ∀ l : List ServiceRequest,
      ((l.filter (fun r => !r.op.isNoteWrite)).map (fun r => r.op.load)).sum ≤ (l.map (fun r => r.op.load)).sum := by
    intro l
    induction l with
    | nil => exact le_rfl
    | cons r l ih =>
      rw [List.filter_cons]
      split <;> simp only [List.map_cons, List.sum_cons] <;> omega
  have := h s.media.services
  simp only [State.requests, State.die, Scheduler.withdrawNotes, State.withMedia_media, State.withMedia_queue]
  omega

theorem State.oldNoteWritten_fuel (s : State) (op : ServiceOp) (r : MediaResult) : (s.oldNoteWritten op r).fuel ≤ s.fuel := by
  have h1 := s.noteWritten_fuel op r
  have h2 := s.noteWritten_requests op r
  have h3 : s.requests ≤ s.fuel := Nat.le_add_right _ _
  have h4 : ∀ o, (((s.noteWritten op r).withMedia (s.noteWritten op r).media.withdrawNotes).finishOpening o).fuel ≤ s.fuel := by
    intro o
    have a := State.finishOpening_fuel ((s.noteWritten op r).withMedia (s.noteWritten op r).media.withdrawNotes) o
    have b := (s.noteWritten op r).requests_withdrawNotes
    omega
  unfold State.oldNoteWritten
  dsimp only
  split
  case h_1 => split <;> first | exact h1.le | exact h4 _
  case h_2 => split <;> first | exact h1.le | exact h4 _
  all_goals exact h1.le

theorem State.serviceDone_fuel (s : State) (q : ServiceRequest) (r : MediaResult) (h : r = .pass [] ∨ r = .fail .offline) :
    (s.serviceDone q r).fuel ≤ s.fuel + (if r = .pass [] then 1 else 0) := by
  unfold State.serviceDone
  split
  · exact s.sequenceResult_fuel _ _ h
  · exact (s.oldNoteWritten_fuel _ _).trans (Nat.le_add_right _ _)
  · exact Nat.le_add_right _ _

/-! ### Consequences -/

theorem State.startService_fuel {s : State} {d : Die} {r : ServiceRequest} (hr : r ∈ s.media.services)
    (hd : (s.die d).free = 1) : (s.startService d r).fuel < s.fuel := by
  have h1 := s.requests_takeRequest hr
  have h2 : ∀ k w i q, ((s.takeRequest r).startMedia d k w i q).requests + 1 = (s.takeRequest r).requests :=
    State.requests_startMedia _ d hd
  have h3 : ∀ k w i q, ((s.takeRequest r).startMedia d k w i q).control = s.control := fun _ _ _ _ => rfl
  have h4 : ∀ t : State, t.control = s.control → t.requests + 1 ≤ s.requests → t.fuel < s.fuel := by
    intro t ht h
    simp only [State.fuel, ht]
    omega
  have h5 : ∀ t : State, t.useNotePage.requests = t.requests ∧
      t.useNotePage.control.sequence = t.control.sequence := fun t => ⟨rfl, rfl⟩
  have h6 : ∀ t : State, t.spendUnit.requests = t.requests ∧
      t.spendUnit.control.sequence = t.control.sequence := by
    intro t; unfold State.spendUnit; split <;> exact ⟨rfl, rfl⟩
  unfold State.startService
  dsimp only
  split
  case h_5 op he =>
    have := h2 .program (s.serviceRow r.op) s.composeOpenedNote (.service r)
    simp only [State.fuel, (h5 _).1, (h5 _).2, h3]
    omega
  case h_6 op image he =>
    split
    · have a := (s.takeRequest r).endFlush_fuel .skipped
      have b : s.requests ≤ s.fuel := Nat.le_add_right _ _
      rw [he] at h1
      simp only [ServiceOp.load] at h1
      omega
    · have := h2 .program (s.serviceRow r.op) image (.service r)
      simp only [State.fuel, (h6 _).1, (h6 _).2, (h5 _).1, (h5 _).2, h3]
      omega
  all_goals
    refine h4 _ (h3 _ _ _ _) ?_
    rw [h2]
    omega

theorem State.startCommit_fuel {s : State} {d : Die} (e : Entry) (hd : (s.die d).free = 1) :
    (s.startCommit d e).fuel < s.fuel := by
  have h6 : ∀ t : State, t.spendUnit.requests = t.requests ∧ t.spendUnit.control.sequence = t.control.sequence ∧
      t.spendUnit.media = t.media := by
    intro t; unfold State.spendUnit; split <;> exact ⟨rfl, rfl, rfl⟩
  unfold State.startCommit
  dsimp only
  generalize hm : s.withQueue { s.queue with entries := updateOldest d commitEntry s.queue.entries } = m
  have m1 : m.requests = s.requests := by
    subst hm; simp [State.requests, State.die, updateOldest_length]
  have m2 : m.control = s.control := by subst hm; rfl
  have m3 : m.media = s.media := by subst hm; rfl
  have hd' : ((m.spendUnit.withPatience d 0).die d).free = 1 := by
    rw [State.die_withPatience, State.die, (h6 m).2.2, m3]; exact hd
  have a := State.requests_startMedia _ d hd' e.kind.media (some e.row) e.image .commit
  rw [State.requests_withPatience, (h6 m).1, m1] at a
  have b : ((m.spendUnit.withPatience d 0).startMedia d e.kind.media (some e.row) e.image .commit).control.sequence =
      s.control.sequence := by
    show m.spendUnit.control.sequence = _
    rw [(h6 m).2.1, m2]
  simp only [State.fuel, b]
  omega

theorem State.requests_noFront {s : State} (h : s.media.frontRead.isSome) :
    (s.withMedia { s.media with frontRead := none }).requests + 1 = s.requests := by
  simp only [State.requests, State.die, State.withMedia_media, State.withMedia_queue, h, Option.isSome_none,
    Bool.toNat_true, Bool.toNat_false]
  omega

theorem State.removeOldest_length {l : List Entry} {d : Die} {e : Entry}
    (h : l.find? (fun e => rowOnDie d e.row) = some e) : (removeOldest d l).length + 1 = l.length := by
  induction l with
  | nil => cases h
  | cons a l ih =>
    unfold removeOldest
    split
    · rfl
    · rename_i ha
      rw [List.find?_cons_of_neg (by simpa using ha)] at h
      simp [ih h]

theorem State.failCommit_entries (s : State) (e : Entry) (c : FailCause) :
    (s.failCommit e c).queue.entries = s.queue.entries ∧ (s.failCommit e c).media = s.media ∧
    (s.failCommit e c).control.sequence = s.control.sequence := by
  unfold State.failCommit
  dsimp only
  split
  · simp
  · simp [State.reportUnwritten, State.addFailedRow]

theorem State.failCommit_fuel {s : State} {d : Die} {e : Entry} (h : s.queue.oldest d = some e) (c : FailCause) :
    (s.countFailure.commitDone d (.fail c)).fuel < s.fuel := by
  have ho : s.countFailure.queue.oldest d = some e := h
  unfold State.commitDone
  rw [ho]
  dsimp only
  generalize ht : s.countFailure.withQueue
    { s.countFailure.queue with entries := removeOldest d s.countFailure.queue.entries } = t
  obtain ⟨f1, f2, f3⟩ := t.failCommit_entries e c
  have t1 : t.media = s.countFailure.media := by subst ht; rfl
  have t2 : t.control = s.control := by subst ht; rfl
  have t3 : t.queue.entries.length + 1 = s.queue.entries.length := by
    subst ht; exact State.removeOldest_length h
  simp only [State.fuel, State.requests, State.die, f1, f2, f3, t1, t2]
  simp only [State.countFailure, State.withMedia_media]
  omega

theorem State.frontReadDone_fuel (s : State) (base : Page) (failed : Bool) : (s.frontReadDone base failed).fuel = s.fuel := by
  unfold State.frontReadDone
  split <;> rfl

theorem State.free_of_ne {s : DieState} (h : s = .idle ∨ s = .offline) : s.free = 1 := by
  rcases h with rfl | rfl <;> rfl

theorem State.perform_fuel {s : State} {a : Action} (h : s.canTake a) : (s.perform a).fuel < s.fuel := by
  rcases h with ⟨d, g, hd, hg, rfl⟩ | ⟨d, ha⟩
  · have hf := State.free_of_ne (.inl hd)
    rcases State.grantFor_cases hg with ⟨r, hr, rfl, -⟩ | ⟨row, c, rfl, hf', -⟩ | ⟨e, rfl, -⟩
    · exact State.startService_fuel hr hf
    · obtain ⟨h1, -⟩ := State.frontFor_some hf'
      have key : ∀ t : State, t.requests = s.requests → t.control = s.control → t.die d = s.die d →
          t.media.frontRead = s.media.frontRead → (t.startFront d row).fuel < s.fuel := by
        intro t ht hc hdie hfr
        have a := State.requests_noFront (s := t) (by rw [hfr, h1]; rfl)
        have hdt : ((t.withMedia { t.media with frontRead := none }).die d).free = 1 := by
          have : (t.withMedia { t.media with frontRead := none }).die d = t.die d := rfl
          rw [this, hdie]; exact hf
        have b := State.requests_startMedia _ d hdt .read (some row) [] (.front false)
        have e : (t.startFront d row).control = s.control := hc
        have b' : (t.startFront d row).requests + 2 = t.requests := by
          rw [← a, ← b]; rfl
        simp only [State.fuel, e]
        omega
      unfold State.perform
      dsimp only
      split
      · exact key _ (s.requests_withPatience d _) rfl (s.die_withPatience d d _) rfl
      · exact key s rfl rfl rfl rfl
    · exact State.startCommit_fuel e hf
  · rcases State.onceActions_cases ha with
      ⟨r, hr, rfl, ⟨h1, -, rfl⟩ | ⟨h1, h2, rfl⟩ | ⟨h1, h2, rfl⟩⟩ | ⟨h1, row, hf, rfl⟩ | ⟨h1, e, ho, rfl⟩
    · exact State.startService_fuel hr (State.free_of_ne (.inr h1))
    · have a := (s.takeRequest r).countFailure.serviceDone_fuel r (.fail .offline) (.inr rfl)
      have b := s.requests_takeRequest hr
      have c : (s.takeRequest r).countFailure.fuel + r.op.load = s.fuel := by
        have e : (s.takeRequest r).countFailure.control = s.control := rfl
        simp only [State.fuel, e, State.requests_countFailure]
        omega
      have l : 1 ≤ r.op.load := by cases r.op <;> simp [ServiceOp.load]
      simp only [reduceCtorEq, if_false] at a
      show ((s.takeRequest r).countFailure.serviceDone r (.fail .offline)).fuel < s.fuel
      omega
    · have a := (s.takeRequest r).serviceDone_fuel r (.pass []) (.inl rfl)
      have b := s.requests_takeRequest hr
      have c : (s.takeRequest r).fuel + r.op.load = s.fuel := by
        have e : (s.takeRequest r).control = s.control := rfl
        simp only [State.fuel, e]
        omega
      have l : r.op.load = 2 := by
        revert h2; cases r.op <;> simp [ServiceOp.isProbe, ServiceOp.load]
      simp only [if_true] at a
      show ((s.takeRequest r).serviceDone r (.pass [])).fuel < s.fuel
      omega
    · obtain ⟨h2, -⟩ := State.frontFor_some hf
      have a := State.requests_noFront (s := s) (by rw [h2]; rfl)
      show ((s.withMedia { s.media with frontRead := none }).countFailure.frontReadDone [] true).fuel < s.fuel
      rw [State.frontReadDone_fuel]
      have e : (s.withMedia { s.media with frontRead := none }).countFailure.fuel + 1 = s.fuel := by
        show (s.withMedia { s.media with frontRead := none }).requests + s.control.sequence.load + 1 = s.fuel
        simp only [State.fuel, ← a]
        omega
      omega
    · obtain ⟨-, h2, -⟩ := State.offer_some ho
      exact State.failCommit_fuel h2 .offline

theorem State.sequenceAction_fuel {s t : State} (h : s.sequenceAction = some t) : t.fuel < s.fuel := by
  rcases State.sequenceAction_cases h with ⟨hq, -, rfl⟩ | ⟨hq, -, rfl⟩
  · exact (s.beginScan_fuel _).trans_lt (by simp only [State.fuel, hq, Sequence.load]; omega)
  · exact s.endDrain_fuel.trans_lt (by simp only [State.fuel, hq, Sequence.load]; omega)

/-- Every consequence leaves fewer. -/
theorem State.micro_fuel {s t : State} (h : s.micro = some t) : t.fuel < s.fuel := by
  rcases State.micro_cases h with ⟨a, n, ha, rfl⟩ | h
  · exact State.perform_fuel (s := s.withFree n) ha
  · exact State.sequenceAction_fuel h

/-- With that many consequences or more taken, none is left. -/
theorem pump_done (n : Nat) (s : State) (h : s.fuel ≤ n) : (pump n s).micro = none := by
  induction n generalizing s with
  | zero =>
    cases hm : s.micro with
    | none => exact hm
    | some t =>
      have := State.micro_fuel hm
      omega
  | succ n ih =>
    unfold pump
    split
    · assumption
    · exact ih _ (by have := State.micro_fuel ‹_›; omega)

/-- The consequences are a chain of single ones from the event's own effect to a state with none left. -/
theorem pump_chain (n : Nat) (s : State) : ∃ (k : Nat) (at_ : Nat → State), at_ 0 = s ∧
    (∀ i < k, (at_ i).micro = some (at_ (i + 1))) ∧ at_ k = pump n s := by
  induction n generalizing s with
  | zero => exact ⟨0, fun _ => s, rfl, by simp, rfl⟩
  | succ n ih =>
    unfold pump
    split
    · exact ⟨0, fun _ => s, rfl, by simp, rfl⟩
    · rename_i t ht
      obtain ⟨k, f, h0, h1, h2⟩ := ih t
      refine ⟨k + 1, fun i => match i with | 0 => s | j + 1 => f j, rfl, ?_, h2⟩
      rintro (_ | i) hi
      · simpa [h0] using ht
      · exact h1 i (by omega)

/-! ### Consequences in the words of the statements -/

theorem State.mem_serviceAction {s : State} {r : ServiceRequest} {a : Action} (hr : r ∈ s.media.services)
    (h : s.serviceAction r.op.die r = some a) : a ∈ s.onceActions r.op.die := by
  unfold State.onceActions
  exact List.mem_append_left _ (List.mem_filterMap.2 ⟨r, hr, h⟩)

/-- What can be taken now is what may be taken. -/
theorem State.canTake_iff (s : State) (a : Action) : s.canTake a ↔ s.MayTake a := by
  constructor
  · rintro (⟨d, g, h1, h2, rfl⟩ | ⟨d, h⟩)
    · exact ⟨h1, h2⟩
    · rcases State.onceActions_cases h with
        ⟨r, hr, rfl, ⟨h1, h2, rfl⟩ | ⟨h1, h2, rfl⟩ | ⟨h1, h2, rfl⟩⟩ | ⟨h1, row, hf, rfl⟩ | ⟨h1, e, ho, rfl⟩
      · exact ⟨hr, h2, h1⟩
      · exact ⟨hr, h2, h1⟩
      · exact ⟨hr, h2, h1⟩
      · exact ⟨(State.frontFor_some hf).1, d, (State.frontFor_some hf).2, h1⟩
      · exact ⟨h1, by rw [ho]; exact Option.some_ne_none e⟩
  · intro h
    cases a with
    | grant d g => exact .inl ⟨d, g, h.1, h.2, rfl⟩
    | startProbe r =>
      obtain ⟨h1, h2, h3⟩ := h
      exact .inr ⟨_, State.mem_serviceAction h1 (by simp [State.serviceAction, h2, h3])⟩
    | passProbe r =>
      obtain ⟨h1, h2, h3⟩ := h
      refine .inr ⟨_, State.mem_serviceAction h1 ?_⟩
      cases hd : s.die r.op.die <;> simp_all [State.serviceAction]
    | failService r =>
      obtain ⟨h1, h2, h3⟩ := h
      exact .inr ⟨_, State.mem_serviceAction h1 (by simp [State.serviceAction, h2, h3])⟩
    | failFront row =>
      obtain ⟨h1, d, h2, h3⟩ := h
      exact .inr ⟨d, by simp [State.onceActions, h3, State.frontFor, h1, h2]⟩
    | failCommit d =>
      obtain ⟨h1, h2⟩ := h
      obtain ⟨e, he⟩ := Option.ne_none_iff_exists'.1 h2
      exact .inr ⟨d, by simp [State.onceActions, h1, he]⟩

/-- The Service Controller's condition acts exactly where it is due. -/
theorem State.sequenceAction_isSome (s : State) : s.sequenceAction.isSome = true ↔ s.SequenceDue := by
  have hd : s.drainEnded = true ↔
      s.queue.entries = [] ∨ s.control.budget ≤ 1 ∧ ∀ e ∈ s.queue.entries, e.progress = .waiting := by
    have : ∀ e : Entry, e.progress = .waiting ↔ ¬ e.progress = .committing := by
      intro e; cases e.progress <;> simp
    simp [State.drainEnded, HoldQueue.committing, this]
  unfold State.sequenceAction State.SequenceDue
  cases hq : s.control.sequence <;> simp [← hd]

/-- One step of the settling is a consequence. -/
theorem State.micro_consequence {s t : State} (h : s.micro = some t) : s.Consequence t := by
  rcases s.micro_eq with ⟨a, ha, n, hn, he⟩ | ⟨ha, he⟩
  · rw [he] at h
    cases h
    refine .inl ⟨a, (s.canTake_iff a).1 ha, ?_⟩
    rcases hn with rfl | rfl
    · exact .inl rfl
    · exact .inr rfl
  · rw [he] at h
    exact .inr ⟨fun a => mt (s.canTake_iff a).2 (ha a), s.sequenceAction_isSome.1 (by rw [h]; rfl), h⟩

/-- Where the settling stops, no consequence is left. -/
theorem State.atRest_of_micro {s : State} (h : s.micro = none) : s.AtRest := by
  rcases s.micro_eq with ⟨a, ha, n, hn, he⟩ | ⟨ha, he⟩
  · rw [he] at h; cases h
  · rw [he] at h
    exact ⟨fun a => mt (s.canTake_iff a).2 (ha a), mt s.sequenceAction_isSome.2 (by rw [h]; decide)⟩

end Sys2Proof.Machine
end

