-- ==== Sys2Proof/Laws/Gauge.lean ====
section
/-! SUPPORT. The Charge Gauge: each operation keeps the gauge within its bounds (R107 to R123). -/

namespace Sys2Proof.Machine

theorem clampNat_range {low high : Nat} (n : Nat) (h : low ≤ high) :
    low ≤ clampNat low high n ∧ clampNat low high n ≤ high := by
  unfold clampNat; omega

theorem clampInt_range {low high : Int} (n : Int) (h : low ≤ high) :
    low ≤ clampInt low high n ∧ clampInt low high n ≤ high := by
  unfold clampInt; omega

theorem satNet_range (n : Int) : -2147483648 ≤ satNet n ∧ satNet n ≤ 2147483647 :=
  clampInt_range n (by decide)

theorem satAdd_le (limit a b : Nat) : satAdd limit a b ≤ limit := Nat.min_le_left _ _

theorem clampLearned_range (nominalCu n : Nat) :
    nominalCu / 2 ≤ clampLearned nominalCu n ∧ clampLearned nominalCu n ≤ nominalCu * 5 / 4 :=
  clampNat_range n (by omega)

theorem Gauge.Lawful.discharge {g : Gauge} (h : g.Lawful) : g.discharge.Lawful where
  remaining := by
    have := h.remaining
    dsimp only [Gauge.discharge]
    split <;> omega
  learned := h.learned
  soc := h.soc
  unknown := fun hu => by
    have := h.unknown hu
    have hs : g.state = .unknown := hu
    simp [Gauge.discharge, hs, this]
  temperature := h.temperature
  factor := h.factor
  usable := h.usable
  drawn := by
    dsimp only [Gauge.discharge]
    split
    · exact satAdd_le _ _ _
    · exact h.drawn
  gateCount := h.gateCount
  gates := h.gates
  net := satNet_range _
  buckets := h.buckets
  periods := h.periods

theorem Gauge.Lawful.charge {g : Gauge} (h : g.Lawful) : g.charge.Lawful where
  remaining := by
    have := h.remaining
    dsimp only [Gauge.charge]
    split <;> omega
  learned := h.learned
  soc := h.soc
  unknown := fun hu => by
    have := h.unknown hu
    have hs : g.state = .unknown := hu
    simp [Gauge.charge, hs, this]
  temperature := h.temperature
  factor := h.factor
  usable := h.usable
  drawn := h.drawn
  gateCount := h.gateCount
  gates := h.gates
  net := satNet_range _
  buckets := h.buckets
  periods := h.periods

theorem Gauge.Lawful.tally {g : Gauge} (h : g.Lawful) (discharging : Bool) : (g.tally discharging).Lawful := by
  unfold Gauge.tally
  split <;> exact { h with }

theorem Gauge.Lawful.convertTallies {g : Gauge} (h : g.Lawful) : g.convertTallies.Lawful := by
  unfold Gauge.convertTallies
  split
  · exact { h with
      unknown := fun hu => by
        have hs : g.state = .unknown := hu
        simp [h.unknown hs]
      net := satNet_range _ }
  · exact h

theorem Gauge.Lawful.full {g : Gauge} (h : g.Lawful) : g.full.Lawful :=
  { h with
    remaining := le_rfl
    unknown := nofun
    drawn := Nat.zero_le _ }

theorem Gauge.Lawful.learn {g : Gauge} (h : g.Lawful) : { g with learned := clampLearned g.nominalCu g.drawn, remaining := 0 }.Lawful :=
  { h with
    remaining := Nat.zero_le _
    learned := clampLearned_range _ _
    unknown := fun hu => ⟨rfl, (h.unknown hu).2⟩ }

theorem Gauge.Lawful.empty {g : Gauge} (h : { g with remaining := 0 }.Lawful) : g.empty.Lawful :=
  { h with
    remaining := Nat.zero_le _
    unknown := nofun }

theorem Gauge.Lawful.packOut {g : Gauge} (h : g.Lawful) : g.packOut.Lawful :=
  { h with
    remaining := Nat.zero_le _
    unknown := fun _ => ⟨rfl, rfl⟩
    net := by simp [Gauge.packOut]
    buckets := by simp [Gauge.packOut] }

theorem Gauge.Lawful.packIn {g : Gauge} (h : g.Lawful) : g.packIn.Lawful :=
  { h with
    remaining := Nat.zero_le _
    unknown := fun _ => ⟨rfl, rfl⟩ }

theorem Gauge.Lawful.boundary {g : Gauge} (h : g.Lawful) : g.boundary.Lawful :=
  { h with
    net := by simp [Gauge.boundary]
    buckets := by
      obtain ⟨h1, h2⟩ := h.buckets
      dsimp only [Gauge.boundary]
      split
      · refine ⟨by simp; omega, ?_⟩
        intro b hb
        rcases List.mem_append.1 hb with hb | hb
        · exact h2 b (List.mem_of_mem_drop hb)
        · rw [List.mem_singleton.1 hb]; exact h.net
      · refine ⟨by simp; omega, ?_⟩
        intro b hb
        rcases List.mem_append.1 hb with hb | hb
        · exact h2 b hb
        · rw [List.mem_singleton.1 hb]; exact h.net }

theorem Gauge.Lawful.beginGate {g : Gauge} (h : g.Lawful) (ticks : Nat) {gates : Nat} (hg : gates < 60) :
    Gauge.Lawful { g with gateTicks := ticks, gates := gates, boundaryTaken := false } :=
  { h with gates := hg }

theorem Gauge.Lawful.nextGate {g : Gauge} (h : g.Lawful) : g.nextGate.Lawful := by
  unfold Gauge.nextGate
  exact h.beginGate _ (Nat.mod_lt _ (by omega))

theorem Gauge.Lawful.read {g : Gauge} (h : g.Lawful) {t : Int} (ht : -40 ≤ t ∧ t ≤ 85) (outOfRange : Bool) :
    Gauge.Lawful
      { g with temperature := t, outOfRange := outOfRange, stale := false, firstReading := true, gateCount := 0 } where
  remaining := h.remaining
  learned := h.learned
  soc := h.soc
  unknown := h.unknown
  temperature := ht
  factor := h.factor
  usable := h.usable
  drawn := h.drawn
  gateCount := Nat.zero_le _
  gates := h.gates
  net := h.net
  buckets := h.buckets
  periods := h.periods

theorem Gauge.Lawful.updateTemperature {g : Gauge} (h : g.Lawful) (zeroCount perDegree : Nat) :
    (g.updateTemperature zeroCount perDegree).Lawful := by
  unfold Gauge.updateTemperature
  split
  · exact { h with }
  · exact h.read (clampInt_range _ (by omega)) _

/-- R110: the state of charge is at most 100. -/
theorem stateOfCharge_le {remaining learned usable : Nat} (h : remaining ≤ learned) (hu : usable ≤ learned) :
    stateOfCharge (usableCharge remaining learned usable) usable ≤ 100 := by
  have : usableCharge remaining learned usable ≤ usable := by unfold usableCharge; omega
  unfold stateOfCharge
  exact Nat.div_le_of_le_mul (by rw [Nat.mul_comm]; exact Nat.mul_le_mul_right _ this)

/-- R116: with the factor in its range the usable capacity is at most the learned one, and 1 or more of a learned
capacity of 256 or more. -/
theorem usableCapacity_range {learned factor : Nat} (hf : 1 ≤ factor ∧ factor ≤ 256) (hl : 256 ≤ learned) :
    1 ≤ usableCapacity learned factor ∧ usableCapacity learned factor ≤ learned := by
  unfold usableCapacity
  constructor
  · rw [Nat.le_div_iff_mul_le (by decide)]
    calc 1 * 256 ≤ learned * 1 := by omega
      _ ≤ learned * factor := Nat.mul_le_mul_left _ hf.1
  · exact Nat.div_le_of_le_mul (by rw [Nat.mul_comm]; exact Nat.mul_le_mul_right _ hf.2)

/-- The derived values of a period, for a factor the table keeps in its range. -/
theorem Gauge.derive_range {g : Gauge} {table : DerateTable} (low critical : Nat)
    (hf : 1 ≤ derateFactor table g.temperature ∧ derateFactor table g.temperature ≤ 256)
    (hr : g.remaining ≤ g.learned) (hl : 256 ≤ g.learned) :
    (g.derive table low critical).factor = derateFactor table g.temperature ∧
    1 ≤ (g.derive table low critical).usable ∧ ∀ x, (g.derive table low critical).soc = some x → x ≤ 100 := by
  have hu := usableCapacity_range hf hl
  unfold Gauge.derive
  cases g.state
  · exact ⟨rfl, hu.1, nofun⟩
  · refine ⟨rfl, hu.1, ?_⟩
    intro x hx
    cases hx
    exact stateOfCharge_le hr hu.2

/-! ### The minutes estimate (R119) -/

theorem minutesLeft_none {ru : Nat} {buckets : List Int} (h : buckets.length < 8 ∨ buckets.sum ≤ 0) :
    minutesLeft ru buckets = none := by
  simp [minutesLeft, h]

theorem minutesLeft_some {ru : Nat} {buckets : List Int} (h1 : 8 ≤ buckets.length) (h2 : 0 < buckets.sum) :
    ∃ average : Nat, (average : Int) = max 1 (buckets.sum.fdiv 8) ∧
      minutesLeft ru buckets = some (min 65535 (ru / average)) := by
  refine ⟨max 1 (buckets.sum / 8).toNat, ?_, ?_⟩
  · rw [Int.fdiv_eq_ediv_of_nonneg _ (by decide)]
    omega
  · simp [minutesLeft, show ¬ (buckets.length < 8 ∨ buckets.sum ≤ 0) by omega]

end Sys2Proof.Machine
end

