-- ==== Sys2Proof/Laws/Report.lean ====
section
/-! SUPPORT. Report Memory: each operation keeps the ring's law (R151 to R157, R164). -/

namespace Sys2Proof.Machine

/-- The ring, the numbers and the slots of a lawful Report Memory, without ATTN. -/
structure RingLaw (ring : List Record) (next : Tick) (slots : Slots) : Prop where
  length : ring.length ≤ 256
  numbers : ∀ i x, ring[i]? = some x → x.number = next - BitVec.ofNat 32 (ring.length - i)
  counts : ∀ x ∈ ring, 1 ≤ x.count ∧ x.count ≤ 65535 ∧ ((∀ c, ¬ x.refusalOf c) → x.count = 1)
  slots : ∀ c n, slots.get c = some n ↔ ∃ x ∈ ring, x.number = n ∧ x.refusalOf c

theorem ReportMemory.lawful_iff {r : ReportMemory} {mask : BitVec 16} :
    r.Lawful mask ↔ RingLaw r.ring r.next r.slots ∧ r.attn = r.attnCondition mask :=
  ⟨fun h => ⟨⟨h.length, h.numbers, h.counts, h.slots⟩, h.attn⟩,
   fun h => ⟨h.1.length, h.1.numbers, h.1.counts, h.1.slots, h.2⟩⟩

/-! ### Slots -/

@[simp] theorem Slots.get_set (v : Slots) (c d : RecordedCause) (x : Option Tick) :
    (v.set d x).get c = if c = d then x else v.get c := by
  cases c <;> cases d <;> rfl

theorem freeSlot_get (slots : Slots) (r : Record) (c : RecordedCause) (n : Tick) :
    (freeSlot slots r).get c = some n ↔ slots.get c = some n ∧ ¬ (r.refusalOf c ∧ n = r.number) := by
  unfold freeSlot Record.refusalOf
  split
  · rename_i x hx
    simp only [hx, Payload.refusal.injEq, exists_eq_left']
    by_cases hc : x.cause = c
    · subst hc
      by_cases hn : slots.get x.cause = some r.number
      · simp only [hn, Slots.get_set, if_pos, reduceCtorEq, true_and, false_iff, Option.some.injEq]
        rintro ⟨rfl, h⟩; exact h rfl
      · simp only [hn, if_false, true_and]
        exact ⟨fun h => ⟨h, fun e => hn (e ▸ h)⟩, fun h => h.1⟩
    · split <;> simp [hc, Ne.symm hc]
  all_goals simp_all

/-! ### The ring -/

theorem RingLaw.number_lt {ring : List Record} {next : Tick} {slots : Slots} (h : RingLaw ring next slots) {i j : Nat}
    {x y : Record} (hx : ring[i]? = some x) (hy : ring[j]? = some y) (e : x.number = y.number) : i = j := by
  rw [h.numbers i x hx, h.numbers j y hy] at e
  have e' := congrArg BitVec.toNat (sub_right_injective e)
  have hi := (List.getElem?_eq_some_iff.1 hx).1
  have hj := (List.getElem?_eq_some_iff.1 hy).1
  have hl := h.length
  simp only [BitVec.toNat_ofNat] at e'
  omega

/-- Numbers do not repeat in the ring. -/
theorem RingLaw.eq_of_number {ring : List Record} {next : Tick} {slots : Slots} (h : RingLaw ring next slots)
    {x y : Record} (hx : x ∈ ring) (hy : y ∈ ring) (e : x.number = y.number) : x = y := by
  obtain ⟨i, hi⟩ := List.mem_iff_getElem?.1 hx
  obtain ⟨j, hj⟩ := List.mem_iff_getElem?.1 hy
  have := h.number_lt hi hj e
  subst this
  exact Option.some.inj (hi.symm.trans hj)

/-- The oldest record leaves the ring and frees the slot that names it (R154). -/
theorem RingLaw.tail {oldest : Record} {rest : List Record} {next : Tick} {slots : Slots}
    (h : RingLaw (oldest :: rest) next slots) : RingLaw rest next (freeSlot slots oldest) where
  length := by have := h.length; simp only [List.length_cons] at this; omega
  numbers i x hx := by
    have := h.numbers (i + 1) x (by simpa using hx)
    simpa using this
  counts x hx := h.counts x (by simp [hx])
  slots c n := by
    rw [freeSlot_get, h.slots]
    constructor
    · rintro ⟨⟨x, hx, hn, hc⟩, hne⟩
      rcases List.mem_cons.1 hx with rfl | hx
      · exact absurd ⟨hc, hn.symm⟩ hne
      · exact ⟨x, hx, hn, hc⟩
    · rintro ⟨x, hx, rfl, hc⟩
      refine ⟨⟨x, by simp [hx], rfl, hc⟩, ?_⟩
      rintro ⟨-, e⟩
      obtain ⟨i, hi⟩ := List.mem_iff_getElem?.1 hx
      have := h.number_lt (i := i + 1) (j := 0) (by simpa using hi) rfl e
      omega

/-- The oldest `n` records leave the ring. -/
theorem RingLaw.drop {ring : List Record} {next : Tick} {slots : Slots} (h : RingLaw ring next slots) (n : Nat) :
    RingLaw (ring.drop n) next ((ring.take n).foldl freeSlot slots) := by
  induction n generalizing ring slots with
  | zero => simpa using h
  | succ n ih =>
    cases ring with
    | nil => simpa using h
    | cons x ring => simpa using ih h.tail

theorem RingLaw.makeRoom {r : ReportMemory} (h : RingLaw r.ring r.next r.slots) :
    RingLaw r.makeRoom.ring r.next r.makeRoom.slots ∧ r.makeRoom.ring.length < 256 ∧
    r.makeRoom.ring = (if r.ring.length = 256 then r.ring.tail else r.ring) := by
  have hl := h.length
  unfold ReportMemory.makeRoom
  split
  · rename_i he
    simp [he] at h ⊢; exact h
  · rename_i x rest he
    rw [he] at h hl
    split
    · rename_i h256
      rw [he] at h256
      refine ⟨h.tail, ?_, ?_⟩
      · simp only [List.length_cons] at hl; change rest.length < 256; omega
      · rw [if_pos (by rw [he]; omega), he]; rfl
    · rename_i h256
      rw [he] at h256
      refine ⟨by rw [he]; exact h, by rw [he]; omega, ?_⟩
      rw [if_neg (by rw [he]; omega)]

theorem RingLaw.snoc {ring : List Record} {next : Tick} {slots slots' : Slots} (h : RingLaw ring next slots)
    (hl : ring.length < 256) (stamp : Tick) (payload : Payload)
    (hs : ∀ c n, slots'.get c = some n ↔ slots.get c = some n ∨
      n = next ∧ Record.refusalOf c { number := next, count := 1, stamp := stamp, payload := payload }) :
    RingLaw (ring ++ [{ number := next, count := 1, stamp := stamp, payload := payload }]) (next + 1) slots' where
  length := by simp; omega
  numbers i x hx := by
    rw [List.getElem?_append] at hx
    split at hx
    · rename_i hi
      rw [h.numbers i x hx, List.length_append, List.length_singleton,
        show ring.length + 1 - i = (ring.length - i) + 1 by omega, BitVec.ofNat_add]
      change next - BitVec.ofNat 32 (ring.length - i) = next + 1 - (BitVec.ofNat 32 (ring.length - i) + 1)
      ring
    · rename_i hi
      have hi' : i - ring.length = 0 := by
        by_contra hne
        rw [List.getElem?_eq_none (by simp; omega)] at hx
        cases hx
      rw [hi'] at hx
      cases hx
      have : ring.length + 1 - i = 1 := by omega
      simp [this]
  counts x hx := by
    rcases List.mem_append.1 hx with hx | hx
    · exact h.counts x hx
    · rw [List.mem_singleton.1 hx]; exact ⟨by simp, by simp, fun _ => rfl⟩
  slots c n := by
    rw [hs, h.slots]
    simp only [List.mem_append, List.mem_singleton, or_and_right, exists_or, exists_eq_left]
    constructor
    · rintro (h | ⟨rfl, h⟩)
      · exact .inl h
      · exact .inr ⟨rfl, h⟩
    · rintro (h | ⟨h1, h2⟩)
      · exact .inl h
      · exact .inr ⟨h1.symm, h2⟩

/-! ### Operations -/

@[simp] theorem ReportMemory.attnCondition_evaluate (r : ReportMemory) (mask : BitVec 16) :
    (r.evaluate mask).attnCondition mask = r.attnCondition mask := rfl

theorem ReportMemory.evaluate_lawful {r : ReportMemory} {mask : BitVec 16} (h : RingLaw r.ring r.next r.slots) :
    (r.evaluate mask).Lawful mask :=
  ReportMemory.lawful_iff.2 ⟨h, rfl⟩

/-- The append of a record that is no REFUSAL (R152). -/
theorem ReportMemory.append_lawful {r : ReportMemory} {mask : BitVec 16} (h : RingLaw r.ring r.next r.slots)
    (stamp : Tick) {payload : Payload} (hp : ∀ x, payload ≠ .refusal x) : (r.append mask stamp payload).Lawful mask := by
  obtain ⟨h1, h2, -⟩ := h.makeRoom
  refine ReportMemory.evaluate_lawful (h1.snoc h2 stamp payload ?_)
  intro c n
  have : ¬ Record.refusalOf c { number := r.next, count := 1, stamp := stamp, payload := payload } := by
    rintro ⟨x, hx, -⟩; exact hp x hx
  simp [this]

/-- A refusal, appended or coalesced (R155). -/
theorem ReportMemory.refuse_lawful {r : ReportMemory} {mask : BitVec 16} (h : r.Lawful mask) (cause : RecordedCause)
    (op : OpKind) (row : BitVec 24) (absolute : Bool) (stamp : Tick) :
    (r.refuse mask cause op row absolute stamp).Lawful mask := by
  obtain ⟨hr, ha⟩ := ReportMemory.lawful_iff.1 h
  unfold ReportMemory.refuse
  split
  · rename_i hs
    obtain ⟨h1, h2, h3⟩ := hr.makeRoom
    refine ReportMemory.lawful_iff.2 ⟨h1.snoc h2 stamp _ ?_, rfl⟩
    intro c n
    have hn : ∀ n, r.makeRoom.slots.get cause ≠ some n := by
      intro n hn
      obtain ⟨x, hx, -, hc⟩ := (h1.slots cause n).1 hn
      have hx' : x ∈ r.ring := by
        rw [h3] at hx; split at hx
        · exact List.mem_of_mem_tail hx
        · exact hx
      have := (hr.slots cause x.number).2 ⟨x, hx', rfl, hc⟩
      rw [hs] at this; cases this
    have e : ∀ p : ReportMemory, (p.evaluate mask).slots = p.slots := fun _ => rfl
    have e2 : (r.append mask stamp (.refusal
        { cause := cause, firstOp := op, firstRow := row, firstAbsolute := absolute, lastOp := op, lastRow := row
          lastTick := stamp })).slots = r.makeRoom.slots := rfl
    simp only [e2, Slots.get_set]
    by_cases hc : c = cause
    · subst hc
      simp only [if_true, Option.some.injEq, hn, false_or, Record.refusalOf, Payload.refusal.injEq]
      constructor
      · rintro rfl; exact ⟨rfl, _, rfl, rfl⟩
      · rintro ⟨rfl, -⟩; rfl
    · simp only [hc, if_false, Record.refusalOf, Payload.refusal.injEq]
      constructor
      · exact .inl
      · rintro (h | ⟨-, x, rfl, hx⟩)
        · exact h
        · exact absurd hx.symm hc
  · rename_i number hs
    have hm : ∀ x : Record, (coalesce op row stamp x).number = x.number ∧
        (∀ c, (coalesce op row stamp x).refusalOf c ↔ x.refusalOf c) ∧
        (coalesce op row stamp x).payload.code = x.payload.code ∧
        ((coalesce op row stamp x).count = x.count ∨
          (∃ c, x.refusalOf c) ∧ (coalesce op row stamp x).count = min 65535 (x.count + 1)) := by
      intro x
      unfold coalesce
      split
      · rename_i y hy
        refine ⟨rfl, ?_, ?_, .inr ⟨⟨y.cause, y, hy, rfl⟩, rfl⟩⟩
        · intro c; simp [Record.refusalOf, hy]
        · simp [Payload.code, hy]
      all_goals exact ⟨rfl, fun _ => Iff.rfl, rfl, .inl rfl⟩
    let f : Record → Record := fun x => if x.number = number then coalesce op row stamp x else x
    have hf : ∀ x : Record, (f x).number = x.number ∧ (∀ c, (f x).refusalOf c ↔ x.refusalOf c) ∧
        (f x).payload.code = x.payload.code ∧
        ((f x).count = x.count ∨ (∃ c, x.refusalOf c) ∧ (f x).count = min 65535 (x.count + 1)) := by
      intro x
      simp only [f]
      split
      · exact hm x
      · exact ⟨rfl, fun _ => Iff.rfl, rfl, .inl rfl⟩
    refine ReportMemory.lawful_iff.2 ⟨⟨?_, ?_, ?_, ?_⟩, ?_⟩
    · simpa using hr.length
    · intro i x hx
      simp only [List.getElem?_map, Option.map_eq_some_iff, List.length_map] at hx ⊢
      obtain ⟨y, hy, rfl⟩ := hx
      rw [(hf y).1]; exact hr.numbers i y hy
    · intro x hx
      obtain ⟨y, hy, rfl⟩ := List.mem_map.1 hx
      obtain ⟨c1, c2, c3⟩ := hr.counts y hy
      obtain ⟨-, g2, -, g4⟩ := hf y
      change 1 ≤ (f y).count ∧ (f y).count ≤ 65535 ∧ ((∀ c, ¬ (f y).refusalOf c) → (f y).count = 1)
      simp only [g2]
      rcases g4 with g4 | ⟨⟨c, g4⟩, g5⟩
      · rw [g4]; exact ⟨c1, c2, c3⟩
      · rw [g5]; exact ⟨by omega, by omega, fun hne => absurd g4 (hne c)⟩
    · intro c n
      rw [hr.slots]
      constructor
      · rintro ⟨x, hx, hn, hc⟩
        exact ⟨f x, List.mem_map_of_mem hx, (hf x).1.trans hn, ((hf x).2.1 c).2 hc⟩
      · rintro ⟨x, hx, hn, hc⟩
        obtain ⟨y, hy, rfl⟩ := List.mem_map.1 hx
        exact ⟨y, hy, (hf y).1.symm.trans hn, ((hf y).2.1 c).1 hc⟩
    · refine ha.trans ?_
      simp only [ReportMemory.attnCondition, List.any_map]
      congr 1
      refine congrArg (r.ring.any ·) (funext fun x => ?_)
      exact congrArg (fun n => mask.getLsbD n) (hf x).2.2.1.symm

/-- An accepted consumption write (R157). -/
theorem ReportMemory.release_lawful {r : ReportMemory} {mask : BitVec 16} (h : RingLaw r.ring r.next r.slots)
    (through : Tick) : (r.release mask through).Lawful mask :=
  ReportMemory.evaluate_lawful (h.drop _)

/-- The load of the sequence counter (R153). -/
theorem ReportMemory.load_lawful {r : ReportMemory} {mask : BitVec 16} (h : r.Lawful mask) (base : Tick) :
    (r.load base).Lawful mask := by
  obtain ⟨hr, ha⟩ := ReportMemory.lawful_iff.1 h
  refine ReportMemory.lawful_iff.2 ⟨⟨?_, ?_, ?_, ?_⟩, ?_⟩
  · simpa [ReportMemory.load] using hr.length
  · intro i x hx
    simp only [ReportMemory.load, List.getElem?_map, Option.map_eq_some_iff, List.length_map] at hx ⊢
    obtain ⟨y, hy, rfl⟩ := hx
    rw [hr.numbers i y hy]; ring
  · intro x hx
    simp only [ReportMemory.load] at hx
    obtain ⟨y, hy, rfl⟩ := List.mem_map.1 hx
    exact hr.counts y hy
  · intro c n
    have : (r.load base).slots.get c = (r.slots.get c).map (· + base) := by cases c <;> rfl
    rw [this, Option.map_eq_some_iff]
    simp only [ReportMemory.load, hr.slots]
    constructor
    · rintro ⟨m, ⟨x, hx, rfl, hc⟩, rfl⟩
      exact ⟨_, List.mem_map_of_mem hx, rfl, hc⟩
    · rintro ⟨x, hx, rfl, hc⟩
      obtain ⟨y, hy, rfl⟩ := List.mem_map.1 hx
      exact ⟨y.number, ⟨y, hy, rfl, hc⟩, rfl⟩
  · refine ha.trans ?_
    simp only [ReportMemory.attnCondition, ReportMemory.load, List.any_map]
    rfl

/-- What an append leaves (R152). -/
theorem ReportMemory.append_spec {r : ReportMemory} {mask : BitVec 16} (hl : r.Lawful mask) (stamp : Tick)
    (payload : Payload) :
    let t := r.append mask stamp payload
    t.ring = (if r.ring.length = 256 then r.ring.tail else r.ring) ++
      [{ number := r.next, count := 1, stamp := stamp, payload := payload }] ∧
    t.next = r.next + 1 ∧ t.loaded = r.loaded ∧ t.masked = r.masked ∧ t.consumption = r.consumption ∧
    t.attn = (!r.masked && t.ring.any (fun x => mask.getLsbD x.payload.code)) ∧
    ∀ c : RecordedCause,
      (∀ oldest, r.ring.length = 256 → r.ring.head? = some oldest → oldest.refusalOf c → t.slots.get c = none) ∧
      ((r.ring.length < 256 ∨ ∀ oldest, r.ring.head? = some oldest → ¬ oldest.refusalOf c) →
        t.slots.get c = r.slots.get c) := by
  have hattn : ∀ m : ReportMemory, m.attnCondition mask = (!m.masked && m.ring.any (fun x => mask.getLsbD x.payload.code)) :=
    fun _ => rfl
  have hlen := hl.length
  cases hr : r.ring with
  | nil => simp [ReportMemory.append, ReportMemory.makeRoom, hr, ReportMemory.evaluate, hattn]
  | cons o rest =>
    rw [hr] at hlen
    by_cases h : (o :: rest).length = 256
    · have hm : r.makeRoom = { r with ring := rest, slots := freeSlot r.slots o } := by
        simp only [ReportMemory.makeRoom, hr]
        exact if_pos h.ge
      have hs : (r.append mask stamp payload).slots = freeSlot r.slots o := by
        simp [ReportMemory.append, hm, ReportMemory.evaluate]
      refine ⟨?_, ?_, ?_, ?_, ?_, ?_, fun c => ?_⟩
      · rw [if_pos h]; simp [ReportMemory.append, hm, ReportMemory.evaluate]
      any_goals simp [ReportMemory.append, hm, ReportMemory.evaluate, hattn]; done
      simp only [hs]
      refine ⟨?_, ?_⟩
      · rintro x - hx ⟨y, hy, rfl⟩
        cases hx
        have := (hl.slots y.cause o.number).2 ⟨o, by simp [hr], rfl, y, hy, rfl⟩
        simp [freeSlot, hy, this]
      · rintro (hx | hx)
        · omega
        · have hn := hx o rfl
          cases hp : o.payload with
          | refusal y =>
            have hc : c ≠ y.cause := fun e => hn ⟨y, hp, e.symm⟩
            by_cases hg : r.slots.get y.cause = some o.number <;> simp [freeSlot, hp, hg, hc]
          | _ => simp only [freeSlot, hp]
    · have hm : r.makeRoom = r := by
        simp only [ReportMemory.makeRoom, hr]
        exact if_neg (by omega)
      refine ⟨?_, ?_, ?_, ?_, ?_, ?_, fun c => ⟨fun _ h' => absurd h' h, fun _ => ?_⟩⟩
      · rw [if_neg h]; simp [ReportMemory.append, hm, ReportMemory.evaluate, hr]
      all_goals simp [ReportMemory.append, hm, ReportMemory.evaluate, hattn]

end Sys2Proof.Machine
end

