-- ==== Sys2Proof/Laws/Service.lean ====
section
/-! SUPPORT. The operation bytes, and the Service Controller's operations as the words of the statements say them. -/

namespace Sys2Proof

theorem namesOperation_eq (byte : Byte) : namesOperation byte = (operationOf byte).isSome := by
  revert byte; decide

theorem frontCommand_wf (byte : Byte) : (frontCommand byte).wf = true := by
  revert byte; decide

theorem operationOf_byte (op : StoreOperation) : operationOf op.byte = some op := by
  cases op <;> rfl

namespace Machine

/-- What follows the OPENED note, in one record update. -/
theorem State.finishOpening_eq (s : State) (opening : Opening) : s.finishOpening opening = s.opened opening := by
  cases opening with
  | startUp info => rfl
  | dipRecovery =>
    have h : (s.control.flushNote.map fun _ => s.control.counts) =
        if s.control.flushNote = none then none else some s.control.counts := by
      cases s.control.flushNote <;> rfl
    simp only [State.finishOpening, State.dipRecord, h]
    rfl

theorem State.openOrFinish_eq {s t : State} {opening : Opening} (h : s.Opens opening t) :
    s.openOrFinish opening = t := by
  rcases h with ⟨h, rfl⟩ | ⟨page, h, hp, rfl⟩
  · simp [State.openOrFinish, h, State.finishOpening_eq]
  · simp only [State.openOrFinish, h, if_true, State.openNote, State.noteNearlyFull, hp]
    by_cases hq : 127 ≤ page <;> simp [hq] <;> rfl

theorem State.loadCounters_eq (s : State) (dropBase sequenceBase : Tick) :
    s.loadCounters dropBase sequenceBase = s.countersLoaded dropBase sequenceBase := rfl

theorem State.lineRecord_enterService (s : State) : s.lineRecord.enterService = s.lineResetEnded := rfl

theorem State.endFlush_eq (s : State) (outcome : FlushNoteOutcome) : s.endFlush outcome = s.flushEnded outcome := rfl

theorem State.countLeaving_eq (s : State) (passed : Bool) :
    s.countLeaving passed = s.withControl (s.countedLeaving passed) := by
  unfold State.countLeaving State.countedLeaving
  cases s.control.state <;> cases passed <;> rfl

/-- The apply of the defaults at a recovery with the nominal as it was (R123, R128). -/
theorem Gauge.recoveryApply_keeps (g : Gauge) (v : Settings) (h : v.nominal * 16000 = g.nominalCu) :
    (g.recoveryApply v).nominalCu = g.nominalCu ∧ (g.recoveryApply v).learned = g.learned ∧
    (g.recoveryApply v).remaining = g.remaining ∧ (g.recoveryApply v).state = g.state := by
  simp only [Gauge.recoveryApply, Gauge.changeNominal, h, if_true, Gauge.followTable, Gauge.convertTallies]
  cases g.tallying <;> cases g.firstReading <;> exact ⟨rfl, rfl, rfl, rfl⟩

/-! ### Standing of requests, and requests abandoned (R78, R132, R133, R148) -/

theorem ServiceRequest.restand_eq (standing : Standing) (r : ServiceRequest) :
    r.restand standing = if r.standing = .awaited then { r with standing := standing } else r := by
  obtain ⟨op, was⟩ := r
  cases was <;> rfl

theorem DieRecord.restand_spec (standing : Standing) (x : DieRecord) :
    (x.restand standing).patience = x.patience ∧
    (∀ op r, x.state = .busy op → op.requester = .service r →
      (x.restand standing).state = .busy { op with requester := .service (r.restand standing) }) ∧
    ((∀ op r, x.state = .busy op → op.requester ≠ .service r) → (x.restand standing).state = x.state) := by
  obtain ⟨state, patience⟩ := x
  cases state with
  | idle => simp [DieRecord.restand]
  | offline => simp [DieRecord.restand]
  | busy op =>
    refine ⟨?_, ?_, fun h => ?_⟩
    · cases hq : op.requester <;> simp [DieRecord.restand, hq]
    · rintro _ r h hq
      cases h
      simp [DieRecord.restand, hq]
    · cases hq : op.requester with
      | service r => exact absurd hq (h op r rfl)
      | _ => simp [DieRecord.restand, hq]

theorem DieRecord.abandon_spec (x : DieRecord) :
    x.abandon.patience = x.patience ∧
    (∀ op abandoned, x.state = .busy op → op.requester = .front abandoned →
      x.abandon.state = .busy { op with requester := .front true }) ∧
    ((∀ op abandoned, x.state = .busy op → op.requester ≠ .front abandoned) → x.abandon.state = x.state) := by
  obtain ⟨state, patience⟩ := x
  cases state with
  | idle => simp [DieRecord.abandon]
  | offline => simp [DieRecord.abandon]
  | busy op =>
    refine ⟨?_, ?_, fun h => ?_⟩
    · cases hq : op.requester <;> simp [DieRecord.abandon, hq]
    · rintro _ b h hq
      cases h
      simp [DieRecord.abandon, hq]
    · cases hq : op.requester with
      | front b => exact absurd hq (h op b rfl)
      | _ => simp [DieRecord.abandon, hq]

theorem Scheduler.writesInProgress_eq (m : Scheduler) :
    m.writesInProgress = ([0, 1, 2, 3] : List Die).countP (fun d =>
      match (m.dies.get d).state with
      | .idle => false
      | .offline => false
      | .busy op => decide (op.kind = .program) || decide (op.kind = .erase)) := by
  unfold Scheduler.writesInProgress allDies
  congr 1
  funext d
  cases h : (m.dies.get d).state with
  | idle => rfl
  | offline => rfl
  | busy op => cases hk : op.kind <;> simp [DieState.writing, MediaKind.isWrite, hk]

theorem State.answering_get (s : State) (d : Die) :
    s.answering.get d = true ↔ d.val < s.control.installed ∧ s.die d ≠ .offline := by
  fin_cases d <;> simp [State.answering, PerDie.get, State.isInstalled]

end Machine

end Sys2Proof
end

