-- ==== Sys2Proof/Tests/Slice0.lean ====
section
/-! SUPPORT. The model's own tests: the well-formedness checks, and one or two small steps of each command. -/

namespace Sys2Proof.Tests

open Sys2Proof Sys2Proof.Machine

/-! ### Well-formedness: each check refuses an ill-formed operand -/

theorem test_wf_page_column_out_of_range : Instr.wf (.readoutEnd 0 [(4224, 0x00#8)]) = false := by decide
theorem test_wf_page_unsorted : Instr.wf (.readoutEnd 0 [(5, 0x00#8), (3, 0x00#8)]) = false := by decide
theorem test_wf_page_column_twice : Instr.wf (.readoutEnd 0 [(5, 0x00#8), (5, 0x01#8)]) = false := by decide
theorem test_wf_page_lists_the_default : Instr.wf (.readoutEnd 0 [(5, 0xFF#8)]) = false := by decide
theorem test_wf_page_ok : Instr.wf (.readoutEnd 3 [(0, 0x12#8), (4223, 0x00#8)]) = true := by decide
theorem test_wf_operation_byte_named :
    (Instr.wf (.unknownOperationByte 0x1B#8) || Instr.wf (.unknownOperationByte 0x5C#8) ||
      Instr.wf (.unknownOperationByte 0x6D#8) || Instr.wf (.unknownOperationByte 0x71#8) ||
      Instr.wf (.unknownOperationByte 0xF3#8)) = false := by decide
theorem test_wf_operation_byte_unknown : Instr.wf (.unknownOperationByte 0x00#8) = true := by decide

/-! ### Small states -/

/-- The state a command leaves. -/
def after (c : Instr) (s : State) : State :=
  match exec c s with
  | .next t => t
  | .fault _ => s
  | .refused _ => s

/-- SERVICE with die 0 IDLE, the counters loaded and the masking ended. -/
def served : State :=
  { State.reset with
    control := { Controller.powerOn with state := .service, sequence := .none, nextNotePage := some 1 }
    media := { Scheduler.powerOn with dies := ⟨⟨.idle, 0⟩, ⟨.offline, 0⟩, ⟨.offline, 0⟩, ⟨.offline, 0⟩⟩ }
    drop := { DropMonitor.powerOn with loaded := true }
    gauge := { Gauge.powerOn true with tallying := false, holding := false }
    report := { ReportMemory.powerOn with loaded := true, masked := false }
    tick := 1000 }

def fronted (f : FrontState) : State := { served with front := { served.front with state := f } }

/-- A program of physical row 300, through window 0. -/
def programOp : Translated :=
  { kind := .program, path := .queue 300, column := 0, origin := .window 0, holdEligible := true
    profileFlag := false, through := false }

/-- RECEIVING that program, with one byte taken. -/
def receiving : State :=
  { fronted (.receiving programOp 1) with queue := { served.queue with reserved := some [(0, 0x12#8)] } }

/-- An entry of row 300. -/
def entry (disposition : Disposition) (progress : Progress) : Entry :=
  { kind := .program, row := 300, disposition := disposition, dropTag := none, origin := .window 0
    profileFlag := false, image := [], progress := progress, acceptTick := 900 }

def queued (e : Entry) : State := { served with queue := { served.queue with entries := [e] } }

/-- Die 0 BUSY with an operation in a phase, with the lines where the phase is a transfer. -/
def busyWith (s : State) (kind : MediaKind) (requester : Requester) (phase : Phase) : State :=
  { s with media := { s.media with
      dies := ⟨⟨.busy { kind := kind, row := some 300, image := [], requester := requester, phase := phase }, 0⟩,
        ⟨.offline, 0⟩, ⟨.offline, 0⟩, ⟨.offline, 0⟩⟩
      lines := if phase.isTransfer then [0] else [] } }

/-- The front in AWAITING with its entry committing at die 0. -/
def committing (phase : Phase) : State :=
  busyWith { queued (entry (.awaiting .attached) .committing) with front := { served.front with state := .awaiting } }
    .program .commit phase

/-- The front in LOADING with its read in progress at die 0. -/
def loadingAt (phase : Phase) : State := busyWith (fronted (.loading 300 4222)) .read (.front false) phase

/-- A drop open since tick 900 by free-fall, with FFALL still high. -/
def onset : Onset := { start := 900, stop := none }
def fallingDrop : Drop :=
  { Drop.fresh .catch_ 1 900 false with onsets := [onset], onsetCount := 1, falls := 1 }
def params : DropParams := { settleMs := 250, ceilingMs := 4000, mergeMs := 20, latency := 0 }
def falling : State :=
  { served with
    pins := { served.pins with ffall := true }
    drop := { served.drop with
      state := .falling, ffallSince := some 900, latched := some params, pending := [fallingDrop], counter := 1
      total := 1, openOnset := some 900, ceilingTimer := .running 100 40000 } }

/-- The drop after an impact at 950: SETTLING, FIMP still high, FFALL low. -/
def settlingDrop : Drop :=
  { fallingDrop with
    kind := .fall, impacts := 1, measure := some { span := 50, height := 0 }, airborne := 40
    onsets := [{ start := 900, stop := some 940 }] }
def settling : State :=
  { falling with
    pins := { served.pins with fimp := true }
    drop := { falling.drop with
      state := .settling, pending := [settlingDrop], openOnset := none, impactStart := some 950
      settleTimer := .running 2500 2500 } }

/-- Four drops of the table wait on entries. -/
def waitingDrop (number : Tick) : Drop :=
  { Drop.fresh .knock number 100 false with condition := .closed 200, impacts := 1, outstanding := 1 }
def fullTable : State :=
  { served with drop := { served.drop with
      pending := [waitingDrop 1, waitingDrop 2, waitingDrop 3, waitingDrop 4], counter := 4 } }

/-- FLUSHING with SUPGOOD low. -/
def flushing : State :=
  { served with
    pins := { served.pins with supgood := false }
    control := { served.control with state := .flushing, sequence := .drain, budget := 5 } }

/-- SPENT with SUPGOOD low. -/
def spent : State :=
  { served with
    pins := { served.pins with supgood := false }
    control := { served.control with state := .spent } }

def settled200 : State := { State.reset with control := { Controller.powerOn with sequence := .settling 200 } }

/-! ### Commands -/

theorem test_powerOn : after (.powerOn ⟨true, false, false, true, true⟩) served =
    { State.reset with
      pins := ⟨true, false, false, true, true⟩, gauge := { State.reset.gauge with seated := false } } := by decide

theorem test_settleEnd_probes_die_zero :
    ((after .startUpSettleEnd settled200).control.sequence = .probeDieZero ∧
      (after .startUpSettleEnd settled200).media.lines = [0] ∧
      ((after .startUpSettleEnd settled200).die 0).serviceRequest =
        some { op := .probe 0, standing := .awaited }) := by decide
theorem test_settleEnd_not_due : after .startUpSettleEnd State.reset = State.reset := by decide

theorem test_read_begins_address_phase : (after .read served).front.state = .addressing .read [] := by decide
theorem test_read_refused_in_starting :
    (after .read State.reset).front.refused = true ∧ (after .read State.reset).front.counters.state = 1 := by decide
theorem test_program_ends_a_transaction :
    (after .program receiving).front.state = .addressing .program [] ∧
      (after .program receiving).queue.reserved = none := by decide
theorem test_erase_refused_while_loading :
    (after .erase (loadingAt .command)).front.state = .loading 300 4222 ∧
      (after .erase (loadingAt .command)).front.counters.sequence = 1 := by decide
theorem test_status_selects :
    (after .status served).front.statusSelected = true ∧ (after .status flushing).front.statusSelected = false := by
  decide
theorem test_reset_frees_the_slot :
    (after .reset receiving).queue.reserved = none ∧ (after .reset receiving).front.state = .idle := by decide
theorem test_reset_detaches_a_commit :
    (after .reset (committing .readout)).queue.entries = [entry (.awaiting .detached) .committing] ∧
      (after .reset (committing .readout)).front.state = .awaiting := by decide
theorem test_unknown_byte : after (.unknownOperationByte 0x00#8) receiving = receiving := by decide
theorem test_named_byte : after (.unknownOperationByte 0x1B#8) served = after .read served := by decide
theorem test_front_commands :
    [0x1B#8, 0x5C#8, 0x6D#8, 0x71#8, 0xF3#8, 0x00#8].map frontCommand =
      [.read, .program, .erase, .status, .reset, .unknownOperationByte 0x00#8] := by decide
theorem test_operation_words :
    [0x1B, 0x5C, 0x6D, 0x71, 0xF3].map (decodeTableWord 8) =
      [some .read, some .program, some .erase, some .status, some .reset] ∧
    decodeTableWord 8 0x00 = none ∧ decodeTableWord 8 0x11B = none ∧ decodeTableWord 16 0x1B = none := by decide
theorem test_word_runs_first :
    step (served.withFetchWord 8 0x71) = exec .status served := by rfl

/-- Row 0x000085 of window 0 is page 5 of its block 1, which is physical block 3. -/
theorem test_address_read_goes_to_the_die :
    (after (.addressByte 0x07#8) (fronted (.addressing .read [0x00#8, 0x00#8, 0x85#8, 0x01#8]))).front.state =
        .loading 389 263 ∧
      (after (.addressByte 0x07#8) (fronted (.addressing .read [0x00#8, 0x00#8, 0x85#8, 0x01#8]))).media.lines =
        [0] := by decide
/-- Column 4224 is refused with cause ADDRESS and recorded. -/
theorem test_address_column_refused :
    (after (.addressByte 0x80#8) (fronted (.addressing .read [0x00#8, 0x00#8, 0x85#8, 0x10#8]))).front.counters.address
        = 1 ∧
      (after (.addressByte 0x80#8) (fronted (.addressing .read [0x00#8, 0x00#8, 0x85#8, 0x10#8]))).report.slots.address
        = some 0 := by decide
theorem test_data_byte_is_stored :
    (after (.dataByte 0x34#8) receiving).queue.reserved = some [(0, 0x12#8), (1, 0x34#8)] := by decide
/-- READY alone in SERVICE with the front IDLE: bit 6. -/
theorem test_strobe_reads_status :
    (after .readStrobe { served with front := { served.front with statusSelected := true } }).front.dataOut =
      some 0x40#8 := by decide
theorem test_strobe_reads_on :
    (after .readStrobe (fronted (.delivering [0x12#8]))).front.dataOut = some 0x12#8 ∧
      (after .readStrobe (fronted (.delivering []))).front.dataOut = some 0xFF#8 := by decide
theorem test_end_commits_in_calm :
    (after .endStrobe receiving).front.state = .awaiting ∧
      ((after .endStrobe receiving).queue.entries.map (fun e => (e.row, e.progress)) = [(300, .committing)]) ∧
      (after .endStrobe receiving).media.lines = [0] := by decide
theorem test_end_posts_in_a_hold :
    (after .endStrobe { receiving with drop := falling.drop }).front.posted = true ∧
      (after .endStrobe { receiving with drop := falling.drop }).drop.pending.map (·.outstanding) = [1] := by decide

/-- Row 300 of die 0 as its three row bytes and two zero columns; an ERASE is closed by END (R38, R65). -/
theorem test_erase_transfer :
    (busyWith served .erase .commit .command).lineTransfer = some (0, [.operation 0x6D#8, .address 0x00#8,
      .address 0x01#8, .address 0x2C#8, .address 0x00#8, .address 0x00#8, .endStrobe]) := by decide
theorem test_read_transfer :
    ((loadingAt .command).lineTransfer.map fun x => x.2.length) = some 6 := by decide
theorem test_transfer_end :
    (after (.commandTransferEnd 0) (loadingAt .command)).media.lines = [] := by decide
theorem test_mrdy_goes_to_readout :
    (after (.mrdySeenHigh 0) (loadingAt (.busy 990 50 10))).media.lines = [0] := by decide
theorem test_readout_takes_the_page :
    after (.readoutEnd 0 [(4222, 0x0F#8)]) (loadingAt .readout) = loadingAt (.status [(4222, 0x0F#8)]) := by decide
theorem test_complete_delivers :
    (after (.mediaOperationComplete 0 0x00#8) (loadingAt (.status [(4222, 0x0F#8)]))).front.state =
      .delivering [0x0F#8, 0xFF#8] := by decide
theorem test_complete_fails_the_commit :
    (after (.mediaOperationComplete 0 0x01#8) (committing (.status []))).front.fail = true ∧
      (after (.mediaOperationComplete 0 0x01#8) (committing (.status []))).media.mediaFailures = 1 := by decide
theorem test_timeout_takes_the_die_offline :
    (after (.dieTimeout 0) (committing (.busy 500 50 500))).die 0 = .offline ∧
      (after (.dieTimeout 0) (committing (.busy 500 50 500))).report.ring.map (·.payload.code) = [4] := by decide
theorem test_timeout_not_due :
    after (.dieTimeout 0) (committing (.busy 501 50 499)) = committing (.busy 501 50 499) := by decide

theorem test_ffall_opens_a_drop :
    (after .ffallRise served).drop.pending =
      [{ Drop.fresh .catch_ 1 1000 false with onsets := [{ start := 1000, stop := none }], onsetCount := 1
                                              falls := 1 }] := by decide
theorem test_ffall_reopens_the_fourth :
    (after .ffallRise fullTable).drop.pending.map (·.kind) = [.knock, .knock, .knock, .multiple] := by decide
theorem test_ffall_fall_begins_the_merge_gap :
    (after .ffallFall falling).drop.mergeTimer = .running 0 200 ∧
      (after .ffallFall falling).drop.pending.map (·.airborne) = [100] := by decide
/-- R95: 1000 - 900 + 0 ticks. -/
theorem test_fimp_takes_the_height :
    (after .fimpRise falling).drop.pending.map (·.measure) = [some { span := 100, height := 0 }] ∧
      (after .fimpRise falling).drop.state = .settling := by decide +kernel
/-- R96: 4517² × 49033 ÷ 10^9 millimetres. -/
theorem test_height : fallHeight 4517 = 1000 ∧ fallHeight 65535 = 65535 := ⟨rfl, rfl⟩
theorem test_fimp_fall_measures :
    (after .fimpFall settling).drop.pending.map (·.longestWidth) = [some 50] := by decide
theorem test_merge_expiry :
    (after .mergeTimerExpiry { falling with drop := { falling.drop with mergeTimer := .running 200 200 } }).drop.state
      = .settling := by decide
theorem test_settle_expiry_reports_the_drop :
    (after .settleTimerExpiry settling).drop.state = .calm ∧ (after .settleTimerExpiry settling).drop.pending = [] ∧
      (after .settleTimerExpiry settling).report.ring.map (·.payload.code) = [1] := by decide
theorem test_ceiling_expiry_suspends :
    (after .ceilingTimerExpiry
      { falling with drop := { falling.drop with ceilingTimer := .running 40000 40000 } }).report.ring.map
      (·.payload.code) = [1, 7] := by decide

theorem test_pulse_discharges :
    (after (.qpulseRise true) { served with gauge := { served.gauge with state := .valid, remaining := 2000 } }).gauge.remaining
      = 400 := by decide
theorem test_pulse_tallied : (after (.qpulseRise false) State.reset).gauge.rawCharge = 1 := by decide
theorem test_tfreq_saturates :
    (after .tfreqRise { served with gauge := { served.gauge with gateCount := 1048575 } }).gauge.gateCount = 1048575 := by
  decide
/-- R113: (11000 - 10000) ÷ 40 = 25; R115: the factor at 25 is 256. -/
theorem test_gate_end :
    (after .gateEnd { served with gauge := { served.gauge with gateTicks := 10000, gateCount := 11000 } }).gauge.temperature
        = 25 ∧
      (after .gateEnd { served with gauge := { served.gauge with gateTicks := 10000, gateCount := 11000 } }).gauge.derived.factor
        = 256 := by decide
theorem test_minute_boundary :
    (after .minuteBoundary { served with gauge := { served.gauge with gateTicks := 10000, gates := 59, net := 7 } }).gauge.buckets
      = [7] := by decide
theorem test_chgdone : (after .chgdoneRise served).gauge.remaining = 108800000 := by decide
theorem test_pkempty_learns :
    (after .pkemptyRise { served with gauge := { served.gauge with anchor := true, drawn := 90000000 } }).gauge.learned =
      90000000 := by decide
theorem test_pkpres_fall :
    (after .pkpresFall served).report.ring.map (·.payload.code) = [2] ∧ (after .pkpresFall served).gauge.seated = false := by
  decide
theorem test_pkpres_rise_held :
    (after .pkpresRise { State.reset with pins := { State.reset.pins with pkpres := false } }).gauge.held =
      [.pkpresRise] := by decide

theorem test_supply_fall_flushes :
    (after .supgoodFall (committing .command)).control.sequence = .drain ∧
      (after .supgoodFall (committing .command)).control.budget = 39 ∧
      (after .supgoodFall (committing .command)).queue.entries = [entry (.awaiting .detached) .committing] := by decide
theorem test_supply_rise_recovers :
    (after .supgoodRise spent).control.sequence = .openedProgram .dipRecovery := by decide
/-- A capacity learned in SPENT outlives the apply of the defaults (R123, R128). -/
theorem test_recovery_keeps_the_learned_capacity :
    (after .supgoodRise { spent with
      gauge := { spent.gauge with learned := 54400000 }, report := { spent.report with masked := true } }).gauge.learned
      = 54400000 := by decide
theorem test_reserve_fall_ends_the_drain :
    (after .rsvgoodFall flushing).control.state = .spent := by decide
theorem test_reserve_rise : (after .rsvgoodRise { served with pins := { served.pins with rsvgood := false } }) = served := by
  decide
theorem test_line_reset_scans : (after .lrst served).control.sequence = .profileScan .lineReset 0 none 0 := by decide
theorem test_line_reset_ignored : after .lrst flushing = flushing := by decide
theorem test_tick_wraps : (after .tick { served with tick := 0xFFFFFFFF#32 }).tick = 0 := by decide

theorem test_step_takes_the_front :
    ∃ t, step { served with pending := [.tick, .lrst] } = .next t ∧ t.tick = 1001 ∧ t.pending = [.lrst] :=
  ⟨_, rfl, by decide, by decide⟩
theorem test_step_idles : step served = .next served := rfl

/-! ### Witnesses: for every statement with hypotheses, operands and states that meet them, clause by clause -/

def lineResetting : State :=
  { served with control := { served.control with state := .lineReset, sequence := .lineWait } }

def posted (row : Nat) : Entry := { entry .posted .waiting with row := row }

def eraseEntry : Entry := { entry .posted .waiting with kind := .erase, row := 384 }

def awaitingEntry : State :=
  { fronted .awaiting with
    queue := { served.queue with entries := [posted 300, entry (.awaiting .attached) .waiting] } }

/-- Three entries, the first on die 1. -/
def threeEntries (e : Entry) : State :=
  { served with queue := { served.queue with entries := [posted 1048576, e, posted 384] } }

def eraseOp : Translated := { programOp with kind := .erase, path := .queue 256 }
def profileOp : Translated :=
  { programOp with path := .profile 0, origin := .window 15, holdEligible := false, profileFlag := true }
def reportOp : Translated :=
  { programOp with path := .report 1, origin := .window 14, holdEligible := false }

/-- A consumption write with S = 0 and its tag. -/
def consumptionImage : Page :=
  [(0, 0x00#8), (1, 0x00#8), (2, 0x00#8), (3, 0x00#8), (4, 0x3C#8), (5, 0x5A#8)]
def consuming : State :=
  { fronted (.receiving reportOp 6) with report := { served.report with consumption := some consumptionImage } }

def closedWindow : State :=
  { served with control := { served.control with
      settings := { defaultSettings with windows := [{ defaultWindowZero with closed := true }] } } }

/-- Report Memory after a number of records. -/
def ringOf : Nat → ReportMemory
  | 0 => ReportMemory.powerOn
  | n + 1 => (ringOf n).append 0x00B9#16 7 (.sensor (.resumed 0))

def refusedOnce : ReportMemory := ReportMemory.powerOn.refuse 0x00B9#16 .closed .program 0x000080#24 false 7
def refusalRecord : Record :=
  { number := 0, count := 1, stamp := 7
    payload := .refusal { cause := .closed, firstOp := .program, firstRow := 0x000080#24, firstAbsolute := false
                          lastOp := .program, lastRow := 0x000080#24, lastTick := 7 } }

/-- A REFUSAL record and a number of records after it. -/
def refusedThen : Nat → ReportMemory
  | 0 => refusedOnce
  | n + 1 => (refusedThen n).append 0x00B9#16 7 (.sensor (.resumed 0))
def fullRefused : ReportMemory := refusedThen 255

/-- Die 0 under a probe. -/
def probing (phase : Phase) : State :=
  busyWith served .reset (.service { op := .probe 0, standing := .disregarded }) phase

def threeDrops : State :=
  { fullTable with drop := { fullTable.drop with pending := [waitingDrop 2, waitingDrop 3, waitingDrop 4] } }

/-- The merge gap after the onset's end at 940, at its last tick. -/
def mergingDrop : Drop := { fallingDrop with airborne := 40, onsets := [{ start := 900, stop := some 940 }] }
def merging : State :=
  { falling with
    pins := served.pins
    drop := { falling.drop with pending := [mergingDrop], openOnset := none, mergeTimer := .running 200 200 } }

def suspended : State :=
  { served with pins := falling.pins, drop := { served.drop with suspended := some 500 } }
def highCalm : State := { served with pins := { falling.pins with fimp := true } }
def highSettling : State := { settling with pins := falling.pins }
def onsetSettling : State :=
  { highSettling with drop := { highSettling.drop with pending := [fallingDrop], openOnset := some 900 } }
def unlistedDrop : Drop :=
  { mergingDrop with onsets := List.replicate 8 { start := 900, stop := some 940 }, onsetCount := 9 }
def knockOff : State :=
  { served with control := { served.control with settings := { defaultSettings with knockHold := false } } }
def struckAgain : State := { settling with pins := served.pins }
def fallenAgain : State := { falling with drop := { falling.drop with pending := [settlingDrop] } }
def atCeiling : State :=
  { falling with drop := { falling.drop with ceilingTimer := .running 40000 40000 } }

def minuteDue : State := { served with gauge := { served.gauge with gateTicks := 10000, gates := 59, net := 7 } }
def gateDone (count : Nat) (state : GaugeState) : State :=
  { served with gauge := { served.gauge with
      gateTicks := 10000, gateCount := count, state := state, anchor := decide (state = .valid)
      remaining := if state = .valid then 100000000 else 0 } }
/-- Eight buckets with a sum of 9. -/
def drained : State :=
  { gateDone 0 .valid with gauge := { (gateDone 0 .valid).gauge with buckets := [2, 1, 1, 1, 1, 1, 1, 1] } }
def unseated : State :=
  { served with pins := { served.pins with pkpres := false }, gauge := { served.gauge with seated := false } }

def settledLow : State := { settled200 with pins := { settled200.pins with supgood := false } }
def flushingHigh : State := { flushing with pins := served.pins }
def flushingWith (budget : Nat) : State :=
  { flushing with
    queue := { flushing.queue with entries := [posted 300] }
    control := { flushing.control with budget := budget } }
def spentNoNote : State := { spent with control := { spent.control with noteUsable := false } }
/-- A dip recovery whose OPENED note waits behind a hold. -/
def recovering : State :=
  { spent with
    pins := served.pins
    control := { spent.control with sequence := .openedProgram .dipRecovery }
    media := { spent.media with services := [{ op := .openedNote, standing := .awaited }] } }

/-- A front read and an offer contest die 0. -/
def contested : State :=
  { queued (posted 300) with media := { served.media with frontRead := some 300 } }

def sixteenRows : List FailedRow := (List.range 16).map (fun i => { block := i, page := some i })

/-- A profile record whose columns are 0xFF but for its tag, four rising temperatures and its check word. -/
def profileImage : Page :=
  [(0, 0x31#8), (1, 0x7E#8), (28, 0xEC#8), (31, 0x00#8), (34, 0x19#8), (37, 0x3C#8), (126, 0x06#8), (127, 0x45#8)]
/-- One whose four temperatures are equal. -/
def flatImage : Page := [(0, 0x31#8), (1, 0x7E#8), (126, 0x0D#8), (127, 0x82#8)]
def flushImage : Page := [(0, 0x5C#8), (1, 0xB3#8), (2, 0x02#8), (96, 0xD0#8), (97, 0x4D#8)]
def openedImage : Page := [(0, 0x5C#8), (1, 0xB3#8), (2, 0x01#8), (96, 0xD1#8), (97, 0x4D#8)]

/-- The Service Controller at a step of a sequence, with die 0 IDLE. -/
def standing (step : Sequence) : State := { served with control := { served.control with sequence := step } }
def dieZeroGone (s : State) : State := { s with media := Scheduler.powerOn }
def noted : Opening := .startUp { cause := .powerOnNoNote, notePage := none, counts := none, rows := none }

theorem opens_exists {s : State} {page : Nat} (opening : Opening)
    (h : s.control.noteUsable = false ∨ s.control.nextNotePage = some page) : ∃ t, s.Opens opening t := by
  by_cases hu : s.control.noteUsable = true
  · rcases h with h | h
    · rw [h] at hu; cases hu
    · exact ⟨_, .inr ⟨page, hu, h, rfl⟩⟩
  · exact ⟨_, .inl ⟨by simpa using hu, rfl⟩⟩

/-- SPENT with nothing loaded, no apply made and a drop open. -/
def unloaded : State :=
  { spent with drop := { falling.drop with loaded := false }, report := ReportMemory.powerOn }
def unloadedLoaded : State :=
  State.reportDrops { unloaded with
    drop := { unloaded.drop with loaded := true }, report := { unloaded.report with loaded := true } }
def unloadedApplied : State :=
  { unloadedLoaded with
    control := { unloadedLoaded.control with
      installed := 1, rres := 40, startUpPending := false, profilePage := none, settings := defaultSettings }
    gauge := { unloadedLoaded.gauge with
      weight := 1600
      temperature := if unloadedLoaded.gauge.firstReading then unloadedLoaded.gauge.temperature else -20 }
    report := { unloadedLoaded.report with
      masked := false
      attn := unloadedLoaded.report.ring.any (fun x => (0x00B9#16).getLsbD x.payload.code) } }

/-- The FLUSH note waits for die 0 with a budget. -/
def flushWaiting (budget : Nat) : State :=
  { flushingWith budget with
    media := { flushing.media with services := [{ op := .flushNote [], standing := .awaited }] } }

def flaggedEntry (tag : Option Tick) : Entry :=
  { entry (.awaiting .attached) .committing with row := 5, profileFlag := true, dropTag := tag }

/-- A record of each kind. -/
def recordOf (payload : Payload) : Record := { number := 0, count := 1, stamp := 7, payload := payload }
def startPayload : StartRecord :=
  { cause := .powerOnClean, notePage := some 3, counts := some ⟨1, 2, 300⟩, flushNote := none, rows := some ⟨1, true⟩
    drained := some ⟨1, 2, true⟩, answering := ⟨true, false, false, false⟩, noteFault := false, eventTick := some 9 }
def batteryPayload : BatteryRecord := served.gauge.toRecord .state
def commitFailPayload : CommitFailRecord := (posted 300).failRecord .media false
def dieOfflinePayload : DieOfflineRecord :=
  { die := 3, cause := .timeout, operation := .program, requester := .commit, block := some 2, page := some 44
    busyStart := 7, timeoutMs := 255 }
def profilePayload : ProfileRecord :=
  { source := .service, outcome := .rejected, page := some 5, generation := none, rejection := [0, 13]
    reason := some .table, clamped := true, pending := false, pagesFailed := none }

/-- `served` with a TICK waiting, where each law is shown to hold. -/
def waiting : State := { served with pending := [.tick] }

/-- Two pending drops with an entry each, and the record of the drop before them, across the wrap of the drop numbers. -/
def taggedEntry (number : Tick) : Entry := { posted 300 with dropTag := some number }
def dropped : State :=
  { waiting with
    queue := { served.queue with entries := [taggedEntry 0xFFFFFFFF#32, taggedEntry 0#32] }
    drop := { served.drop with counter := 0, pending := [waitingDrop 0xFFFFFFFF#32, waitingDrop 0#32] }
    report := served.report.append 0x00B9#16 7 (.drop ((waitingDrop 0xFFFFFFFE#32).toRecord 200)) }

/-! Laws of these states -/

theorem reportMemory_powerOn_lawful (mask : BitVec 16) : ReportMemory.powerOn.Lawful mask := by
  refine ⟨by decide, by intro i x h; simp [ReportMemory.powerOn] at h, (by intro x h; cases h), ?_, rfl⟩
  intro c n
  cases c <;> simp [ReportMemory.powerOn, Slots.get]

theorem ringOf_lawful (n : Nat) : (ringOf n).Lawful 0x00B9#16 := by
  induction n with
  | zero => exact reportMemory_powerOn_lawful _
  | succ n ih => exact ReportMemory.append_lawful (ReportMemory.lawful_iff.1 ih).1 _ nofun

theorem ringOf_ring (n : Nat) :
    (ringOf n).ring.length = min n 256 ∧ ∀ x ∈ (ringOf n).ring, x.payload = .sensor (.resumed 0) := by
  induction n with
  | zero => simp [ringOf, ReportMemory.powerOn]
  | succ n ih =>
    obtain ⟨hl, hp⟩ := ih
    simp only [ringOf, ReportMemory.append, ReportMemory.evaluate, ReportMemory.makeRoom]
    split
    · rename_i h0
      rw [h0] at hl
      simp at hl
      constructor
      · simp [h0]; omega
      · intro x hx; simp [h0] at hx; subst hx; rfl
    · rename_i oldest rest h0
      rw [h0] at hl hp
      simp at hl
      split
      · rename_i hge
        rw [h0] at hge
        simp at hge
        constructor
        · simp; omega
        · intro x hx
          rcases List.mem_append.1 hx with hx | hx
          · exact hp x (by simp_all)
          · simp at hx; subst hx; rfl
      · rename_i hlt
        rw [h0] at hlt
        simp at hlt
        constructor
        · simp [h0]; omega
        · intro x hx
          rcases List.mem_append.1 hx with hx | hx
          · exact hp x (by simp_all)
          · simp at hx; subst hx; rfl

theorem ringOf_slot (n : Nat) (c : RecordedCause) : (ringOf n).slots.get c = none := by
  cases h : (ringOf n).slots.get c with
  | none => rfl
  | some k =>
    obtain ⟨x, hx, -, y, hy, -⟩ := ((ringOf_lawful n).slots c k).1 h
    rw [(ringOf_ring n).2 x hx] at hy
    cases hy

theorem refusedOnce_lawful : refusedOnce.Lawful 0x00B9#16 :=
  ReportMemory.refuse_lawful (reportMemory_powerOn_lawful _) _ _ _ _ _

theorem refusedThen_lawful (n : Nat) : (refusedThen n).Lawful 0x00B9#16 := by
  induction n with
  | zero => exact refusedOnce_lawful
  | succ n ih => exact ReportMemory.append_lawful (ReportMemory.lawful_iff.1 ih).1 _ nofun

theorem refusedThen_ring {n : Nat} (h : n ≤ 255) :
    ∃ rest, (refusedThen n).ring = refusalRecord :: rest ∧ rest.length = n := by
  induction n with
  | zero => exact ⟨[], by decide, rfl⟩
  | succ n ih =>
    obtain ⟨rest, h1, h2⟩ := ih (by omega)
    refine ⟨rest ++ [{ number := (refusedThen n).next, count := 1, stamp := 7, payload := .sensor (.resumed 0) }], ?_, by simp [h2]⟩
    have hr := (ReportMemory.append_spec (refusedThen_lawful n) 7 (.sensor (.resumed 0))).1
    rw [if_neg (by simp [h1, h2]; omega), h1] at hr
    exact hr

theorem fullRefused_lawful : fullRefused.Lawful 0x00B9#16 := refusedThen_lawful 255

theorem fullRefused_ring : fullRefused.ring.length = 256 ∧ fullRefused.ring.head? = some refusalRecord := by
  obtain ⟨rest, h1, h2⟩ := refusedThen_ring (le_refl 255)
  unfold fullRefused
  simp [h1, h2]

theorem defaultDerate_lawful : defaultDerate.Lawful := ⟨by decide, by decide, by decide, by decide⟩

theorem defaultSettings_lawful : defaultSettings.Lawful where
  settle := by decide
  ceiling := by decide
  merge := by decide
  latency := by decide
  weight := by decide
  nominal := by decide
  thresholds := by decide
  zeroCount := by decide
  perDegree := by decide
  derate := defaultDerate_lawful
  interval := by decide
  dieTimeout := by decide
  patience := by decide

theorem waiting_reportLaw : waiting.ReportLaw := by
  refine ⟨by decide, by intro i x h; simp [waiting, served, ReportMemory.powerOn] at h, (by intro x h; cases h), ?_, rfl⟩
  intro c n
  cases c <;> simp [waiting, served, ReportMemory.powerOn, Slots.get]

theorem served_gaugeLaw : served.GaugeLaw where
  settings := ⟨defaultSettings_lawful, by decide, by decide, by decide, by decide⟩
  nominal := rfl
  gauge :=
    { remaining := by decide
      learned := by decide
      soc := by intro x h; cases h
      unknown := fun _ => ⟨rfl, rfl⟩
      temperature := by decide
      factor := by decide
      usable := by decide
      drawn := by decide
      gateCount := by decide
      gates := by decide
      net := by decide
      buckets := by decide
      periods := by decide }

theorem waiting_gaugeLaw : waiting.GaugeLaw :=
  ⟨served_gaugeLaw.settings, served_gaugeLaw.nominal, served_gaugeLaw.gauge⟩

theorem waiting_windowLaw : waiting.WindowLaw := ⟨by decide, by simp only [Window.Placed]; decide⟩

theorem waiting_addressLaw : waiting.AddressLaw where
  installed := by decide
  windows := waiting_windowLaw
  receiving := nofun
  entries := by intro e h; cases h
  dies := by intro d; fin_cases d <;> exact trivial

theorem waiting_sequenceLaw : waiting.SequenceLaw where
  stands := .inl rfl
  single := by decide
  awaited := by intro r h; revert h; exact nofun
  place := by intro d r h; fin_cases d <;> cases h
  flush := by intro r h; revert h; exact nofun
  supply := nofun

theorem settled200_sequenceLaw : settled200.SequenceLaw where
  stands := rfl
  single := by decide
  awaited := by intro r h; revert h; exact nofun
  place := by intro d r h; fin_cases d <;> cases h
  flush := by intro r h; revert h; exact nofun
  supply := nofun

theorem recovering_sequenceLaw : recovering.SequenceLaw where
  stands := rfl
  single := by decide
  awaited := by
    intro r h
    have h : r ∈ [({ op := .openedNote, standing := .awaited } : ServiceRequest)] := h
    simp at h
    subst h
    exact fun _ => rfl
  place := by intro d r h; fin_cases d <;> cases h
  flush := by
    intro r h
    have h : r ∈ [({ op := .openedNote, standing := .awaited } : ServiceRequest)] := h
    simp at h
    subst h
    exact nofun
  supply := nofun

theorem waiting_queueLaw : waiting.QueueLaw where
  rres := by decide
  posted := by decide
  length := by decide
  awaiting := by intro e h; cases h
  front := by intro e h; cases h
  empty := nofun
  idle := fun _ => rfl
  scan := nofun
  note := nofun
  sequence := waiting_sequenceLaw

theorem settled200_queueLaw : settled200.QueueLaw where
  rres := by decide
  posted := by decide
  length := by decide
  awaiting := by intro e h; cases h
  front := by intro e h; cases h
  empty := fun _ => rfl
  idle := fun _ => rfl
  scan := nofun
  note := nofun
  sequence := settled200_sequenceLaw

theorem recovering_queueLaw : recovering.QueueLaw where
  rres := by decide
  posted := by decide
  length := by decide
  awaiting := by intro e h; cases h
  front := by intro e h; cases h
  empty := fun _ => rfl
  idle := fun _ => rfl
  scan := nofun
  note := nofun
  sequence := recovering_sequenceLaw

theorem waiting_failedRowLaw : waiting.FailedRowLaw := ⟨by decide, List.Pairwise.nil⟩

theorem waiting_dropLaw : waiting.DropLaw where
  monitor :=
    { length := by decide
      numbers := by intro i x h; simp [waiting, served] at h; cases h
      older := by intro x h; cases h
      calm := by intro _ x h; cases h
      opened := fun h => absurd rfl h
      timersCalm := fun _ => ⟨rfl, rfl, rfl⟩
      timersFalling := nofun
      timersSettling := nofun
      ceiling := fun h => absurd rfl h
      onsets := by intro x h; cases h }
  outstanding := by intro x h; cases h
  tags := by intro e h; cases h
  tagOrder := List.Pairwise.nil

theorem waiting_dropRecordLaw : waiting.DropRecordLaw where
  numbers := by intro i n h; simp [waiting, served, State.dropNumbers, ReportMemory.powerOn, DropMonitor.powerOn] at h
  unloaded := nofun
  before := nofun

theorem dropped_reportLaw : dropped.ReportLaw :=
  ReportMemory.append_lawful (ReportMemory.lawful_iff.1 waiting_reportLaw).1 _ nofun

theorem dropped_queueLaw : dropped.QueueLaw where
  rres := by decide
  posted := by decide
  length := by decide
  awaiting := by decide
  front := fun e h hne => absurd ((by decide : ∀ e ∈ dropped.queue.entries, e.disposition = .posted) e h) hne
  empty := nofun
  idle := fun _ => rfl
  scan := nofun
  note := nofun
  sequence := ⟨waiting_sequenceLaw.stands, waiting_sequenceLaw.single, waiting_sequenceLaw.awaited,
    waiting_sequenceLaw.place, waiting_sequenceLaw.flush, waiting_sequenceLaw.supply⟩

theorem dropped_dropLaw : dropped.DropLaw where
  monitor :=
    { length := by decide
      numbers := by
        intro i x h
        match i, h with
        | 0, h => cases h; decide
        | 1, h => cases h; decide
        | n + 2, h => simp [dropped] at h
      older := by simp only [Drop.isClosed]; decide
      calm := by simp only [Drop.isClosed]; decide
      opened := fun h => absurd rfl h
      timersCalm := fun _ => ⟨rfl, rfl, rfl⟩
      timersFalling := nofun
      timersSettling := nofun
      ceiling := fun h => absurd rfl h
      onsets := by decide }
  outstanding := by decide
  tags := by
    intro e h n hn
    simp only [dropped, List.mem_cons, List.not_mem_nil, or_false] at h
    rcases h with rfl | rfl <;> cases hn
    · exact ⟨waitingDrop 0xFFFFFFFF#32, by simp [dropped], rfl⟩
    · exact ⟨waitingDrop 0#32, by simp [dropped], rfl⟩
  tagOrder := by
    show [0xFFFFFFFF#32, 0#32].Pairwise (fun a b => (0#32 - b).toNat ≤ (0#32 - a).toNat)
    decide

theorem dropped_dropRecordLaw : dropped.DropRecordLaw where
  numbers := by
    intro i n h
    have e : dropped.dropNumbers = [0xFFFFFFFE#32, 0xFFFFFFFF#32, 0#32] := by decide
    rw [e] at h ⊢
    match i, h with
    | 0, h => cases h; decide
    | 1, h => cases h; decide
    | 2, h => cases h; decide
    | k + 3, h => simp at h
  unloaded := nofun
  before := nofun

theorem waiting_commitLaw : waiting.CommitLaw where
  oldest := by intro d e h; cases h
  absent := by intro d _; fin_cases d <;> rfl
  younger := by intro d e h; cases h

theorem waiting_schedulerLaw : waiting.SchedulerLaw where
  limit := by decide
  patience := by decide
  failures := by decide
  once := by decide
  transfers := by decide

theorem schedulerLaw_busyWith (s : State) (kind : MediaKind) (requester : Requester) (phase : Phase)
    (limit : 1 ≤ s.control.settings.patience ∧ s.control.settings.patience ≤ 8)
    (failures : s.media.mediaFailures ≤ 65535) : (busyWith s kind requester phase).SchedulerLaw where
  limit := limit
  patience := by intro d; fin_cases d <;> simp [busyWith, PerDie.get]
  failures := failures
  once := by cases phase <;> simp [busyWith, Phase.isTransfer]
  transfers := by
    intro d
    cases phase <;> fin_cases d <;> simp [busyWith, State.die, PerDie.get, Phase.isTransfer, DieState.inTransfer]

theorem waiting_pageLaw : waiting.PageLaw where
  reserved := by intro p h; cases h
  entries := by intro e h; cases h
  consumption := by intro p h; cases h
  services := by intro r h; cases h
  dies := by intro d; fin_cases d <;> exact trivial
  sequence := trivial

theorem sixteenRows_fit : ∀ r ∈ sixteenRows, r.block < 32768 ∧ ∀ p, r.page = some p → p < 128 := by
  intro r h
  obtain ⟨i, hi, rfl⟩ := List.mem_map.1 h
  have := List.mem_range.1 hi
  exact ⟨by dsimp; omega, by intro p hp; cases hp; omega⟩

theorem witness_StepTakesTheFrontCommand :
    (({ served with pending := [.tick] } : State).pending = .tick :: [] ∧ served.pending = []) :=
  ⟨by decide, by decide⟩

theorem witness_OperationBytesAreTakenOrRefused :
    (served.control.state = .service ∧ (∀ row column, served.front.state ≠ .loading row column) ∧ served.front.state ≠ .awaiting) ∧
    (Instr.reset ∈ [Instr.read, .program, .erase, .reset] ∧ State.reset.control.state = .starting ∧ lineResetting.control.state = .lineReset) ∧
    ((loadingAt .command).control.state = .service ∧ (∃ row column, (loadingAt .command).front.state = .loading row column)) ∧
    ((committing .command).control.state = .service ∧ (committing .command).front.state = .awaiting) ∧
    (Instr.status ∈ [Instr.read, .program, .erase, .status, .reset] ∧ flushing.control.state = .flushing ∧ spent.control.state = .spent) :=
  ⟨⟨by decide, nofun, by decide⟩,
    ⟨by decide, by decide, by decide⟩,
    ⟨by decide, ⟨_, _, rfl⟩⟩,
    ⟨by decide, by decide⟩,
    ⟨by decide, by decide, by decide⟩⟩

theorem witness_StatusShowsTheFields :
    (served.control.state ≠ .flushing ∧ served.control.state ≠ .spent) :=
  ⟨by decide, by decide⟩

theorem witness_ResetAbandonsTheOperation :
    ((∃ op, (loadingAt .readout).die 0 = .busy op ∧ op.requester = .front false)) ∧
    ((∃ op, (committing .command).die 0 = .busy op ∧ ∀ abandoned, op.requester ≠ .front abandoned)) ∧
    ((loadingAt .readout).control.state = .service ∧ (loadingAt .readout).front.state ≠ .awaiting) ∧
    (awaitingEntry.control.state = .service ∧ awaitingEntry.front.state = .awaiting ∧ awaitingEntry.queue.entries = [posted 300] ++ [entry (.awaiting .attached) .waiting] ∧ (∀ x ∈ [posted 300], x.disposition = .posted) ∧ (entry (.awaiting .attached) .waiting).disposition = .awaiting .attached ∧ (entry (.awaiting .attached) .waiting).progress = .waiting) ∧
    ((committing .command).control.state = .service ∧ (committing .command).front.state = .awaiting ∧ (committing .command).queue.entries = [] ++ [entry (.awaiting .attached) .committing] ∧ (entry (.awaiting .attached) .committing).progress = .committing) ∧
    ((entry (.awaiting .detached) .waiting).disposition = .awaiting .detached) :=
  ⟨(⟨_, rfl, rfl⟩),
    (⟨_, rfl, nofun⟩),
    ⟨by decide, by decide⟩,
    ⟨by decide, by decide, by decide, by decide, by decide, by decide⟩,
    ⟨by decide, by decide, by decide, by decide⟩,
    (by decide)⟩

theorem witness_UnexpectedStrobesChangeNothing :
    ((∀ kind taken, served.front.state ≠ .addressing kind taken) ∧ (∀ op next, served.front.state ≠ .receiving op next)) ∧
    ((fronted (.receiving eraseOp 0)).front.state = .receiving eraseOp 0 ∧ eraseOp.kind = .erase) ∧
    (Instr.endStrobe ∈ [Instr.addressByte 0, .dataByte 0, .endStrobe] ∧ flushing.control.state = .flushing ∧ spent.control.state = .spent) ∧
    ((0x00#8 : Byte) ∉ [0x1B#8, 0x5C#8, 0x6D#8, 0x71#8, 0xF3#8] ∧ (0xF4#8 : Byte) ∉ [0x1B#8, 0x5C#8, 0x6D#8, 0x71#8, 0xF3#8]) :=
  ⟨⟨nofun, nofun⟩,
    ⟨by decide, by decide⟩,
    ⟨by decide, by decide, by decide⟩,
    ⟨by decide, by decide⟩⟩

theorem witness_AddressBytesFormTheAddress :
    ((fronted (.addressing .read [1, 2, 3])).control.state = .service ∧ (fronted (.addressing .read [1, 2, 3])).front.state = .addressing .read [1, 2, 3] ∧ ([1, 2, 3] : List Byte).length < 4) :=
  ⟨by decide, by decide, by decide⟩

theorem witness_AddressPhaseRefuses :
    ((fronted (.addressing .program [0x00#8, 0x00#8, 0x80#8, 0x20#8])).control.state = .service ∧ (fronted (.addressing .program [0x00#8, 0x00#8, 0x80#8, 0x20#8])).front.state = .addressing .program [0x00#8, 0x00#8, 0x80#8, 0x20#8] ∧ screen served.control.settings served.control.installed .program (addressOf 0x00#8 0x00#8 0x80#8 0x20#8 0x00#8) = .refused .qualifier) ∧
    (screen served.control.settings served.control.installed .program (addressOf 0x00#8 0x00#8 0x80#8 0x10#8 0x80#8) = .refused .address) ∧
    (screen closedWindow.control.settings closedWindow.control.installed .program (addressOf 0x00#8 0x00#8 0x80#8 0x00#8 0x00#8) = .refused .closed) ∧
    (screen served.control.settings served.control.installed .read (addressOf 0x00#8 0x00#8 0x80#8 0x80#8 0x00#8) = .refused .service) :=
  ⟨⟨by decide, by decide, by decide⟩,
    (by decide),
    (by decide),
    (by decide)⟩

theorem witness_RefusalIsRecordedOrCoalesced :
    ((ringOf 256).Lawful 0x00B9#16 ∧ (ringOf 256).ring.length = 256 ∧ (ringOf 256).slots.get .closed = none) ∧
    ((ringOf 255).Lawful 0x00B9#16 ∧ (ringOf 255).slots.get .closed = none) ∧
    (refusedOnce.Lawful 0x00B9#16 ∧ refusedOnce.ring = [] ++ refusalRecord :: [] ∧ (∃ y, refusalRecord.payload = .refusal y ∧ y.cause = .closed)) ∧
    (fullRefused.Lawful 0x00B9#16 ∧ fullRefused.ring.length = 256 ∧ (∃ oldest, fullRefused.ring.head? = some oldest ∧ oldest.refusalOf .closed)) ∧
    (refusedOnce.ring.length < 256) :=
  ⟨⟨ringOf_lawful 256, (ringOf_ring 256).1, ringOf_slot 256 _⟩,
    ⟨ringOf_lawful 255, ringOf_slot 255 _⟩,
    ⟨refusedOnce_lawful, by decide, ⟨_, rfl, rfl⟩⟩,
    ⟨fullRefused_lawful, fullRefused_ring.1, ⟨_, fullRefused_ring.2, _, rfl, rfl⟩⟩,
    (by decide)⟩

theorem witness_WriteEntersReceiving :
    ((fronted (.addressing .program [0x00#8, 0x00#8, 0x80#8, 0x00#8])).control.state = .service ∧ (fronted (.addressing .program [0x00#8, 0x00#8, 0x80#8, 0x00#8])).front.state = .addressing .program [0x00#8, 0x00#8, 0x80#8, 0x00#8] ∧ OpKind.program ≠ .read ∧ (∃ op, screen served.control.settings served.control.installed .program (addressOf 0x00#8 0x00#8 0x80#8 0x00#8 0x00#8) = .passed op ∧ ∀ page, op.path ≠ .report page)) ∧
    ((∃ op, screen served.control.settings served.control.installed .program (addressOf 0xE0#8 0x00#8 0x01#8 0x00#8 0x00#8) = .passed op ∧ op.path = .report 1)) ∧
    ((∃ op, screen served.control.settings served.control.installed .erase (addressOf 0xF0#8 0x00#8 0x7F#8 0x00#8 0x00#8) = .passed op ∧ op.path = .profile 0)) :=
  ⟨⟨by decide, by decide, by decide, ⟨_, rfl, nofun⟩⟩,
    (⟨_, rfl, rfl⟩),
    (⟨_, rfl, rfl⟩)⟩

theorem witness_ReadDeliversOrLoads :
    ((fronted (.addressing .read [0xE0#8, 0x00#8, 0x7F#8, 0x00#8])).control.state = .service ∧ (fronted (.addressing .read [0xE0#8, 0x00#8, 0x7F#8, 0x00#8])).front.state = .addressing .read [0xE0#8, 0x00#8, 0x7F#8, 0x00#8] ∧ (∃ op, screen served.control.settings served.control.installed .read (addressOf 0xE0#8 0x00#8 0x7F#8 0x00#8 0x00#8) = .passed op ∧ op.path = .report 127)) ∧
    ((∃ op, screen served.control.settings served.control.installed .read (addressOf 0x00#8 0x00#8 0x80#8 0x00#8 0x00#8) = .passed op ∧ op.path = .snoop 384) ∧ afterErase (384 / 128) [eraseEntry, posted 384] = some [posted 384] ∧ afterErase (384 / 128) [posted 384] = none) :=
  ⟨⟨by decide, by decide, ⟨_, rfl, rfl⟩⟩,
    ⟨⟨_, rfl, rfl⟩, by decide, by decide⟩⟩

theorem witness_DataBytesAndReadStrobesAct :
    (receiving.control.state = .service ∧ receiving.front.state = .receiving programOp 1 ∧ programOp.kind = .program ∧ Page.Canonical [(0, 0x12#8)] ∧ (∀ page, programOp.path ≠ .report page) ∧ receiving.queue.reserved = some [(0, 0x12#8)]) ∧
    ((fronted (.receiving programOp 4224)).front.state = .receiving programOp 4224 ∧ (fronted (.receiving programOp 4223)).front.state = .receiving programOp 4223) ∧
    (consuming.front.state = .receiving reportOp 6 ∧ reportOp.kind = .program ∧ reportOp.path = .report 1 ∧ consuming.report.consumption = some consumptionImage ∧ Page.Canonical consumptionImage) ∧
    (flushing.control.state = .flushing ∧ spent.control.state = .spent) ∧
    ((fronted (.delivering [0x12#8])).control.state ≠ .flushing ∧ (fronted (.delivering [0x12#8])).control.state ≠ .spent ∧ (fronted (.delivering [0x12#8])).front.state = .delivering (0x12#8 :: [])) ∧
    ((fronted (.delivering [])).front.state = .delivering []) ∧
    ((∀ rest, served.front.state ≠ .delivering rest) ∧ State.reset.control.state ≠ .flushing ∧ State.reset.control.state ≠ .spent) :=
  ⟨⟨by decide, by decide, by decide, rfl, nofun, by decide⟩,
    ⟨by decide, by decide⟩,
    ⟨by decide, by decide, by decide, by decide, rfl⟩,
    ⟨by decide, by decide⟩,
    ⟨by decide, by decide, by decide⟩,
    (by decide),
    ⟨nofun, by decide, by decide⟩⟩

theorem witness_EndFormsTheEntry :
    (receiving.control.state = .service ∧ receiving.front.state = .receiving programOp 1 ∧ programOp.kind ≠ .read ∧ programOp.path = .queue 300 ∧ receiving.drop.state = .calm) ∧
    ((fronted (.receiving profileOp 0)).front.state = .receiving profileOp 0 ∧ profileOp.path = .profile 0) ∧
    (({ receiving with drop := falling.drop } : State).control.state = .service ∧ ({ receiving with drop := falling.drop } : State).drop.state ≠ .calm ∧ ({ receiving with drop := falling.drop } : State).front.state = .receiving programOp 1) :=
  ⟨⟨by decide, by decide, by decide, by decide, by decide⟩,
    ⟨by decide, by decide⟩,
    ⟨by decide, by decide, by decide⟩⟩

theorem witness_ConsumptionWritesRelease :
    (consuming.control.state = .service ∧ consuming.front.state = .receiving reportOp 6 ∧ reportOp.path = .report 1 ∧ consuming.report.consumption = some consumptionImage ∧ readField consumptionImage 4 2 = 0x5A3C) ∧
    (({ consuming with report := { consuming.report with consumption := some [] } } : State).report.consumption = some [] ∧ readField [] 4 2 ≠ 0x5A3C) ∧
    ((ringOf 3).Lawful 0x00B9#16 ∧ (ringOf 3).ring.length = 3) ∧
    (ReportMemory.powerOn.Lawful 0x00B9#16 ∧ ReportMemory.powerOn.ring = []) :=
  ⟨⟨by decide, by decide, by decide, by decide, by decide⟩,
    ⟨by decide, by decide⟩,
    ⟨ringOf_lawful 3, by decide⟩,
    ⟨ringOf_lawful 0, by decide⟩⟩

theorem witness_TransfersFollowThePhases :
    ((∃ op, (loadingAt .command).die 0 = .busy op ∧ op.phase = .command ∧ (loadingAt .command).media.lines = 0 :: [])) ∧
    ((loadingAt (.busy 990 50 10)).SchedulerLaw ∧ (∃ op, (loadingAt (.busy 990 50 10)).die 0 = .busy op ∧ op.phase = .busy 990 50 10 ∧ op.kind = .read)) ∧
    ((committing (.busy 990 50 10)).SchedulerLaw ∧ (∃ op, (committing (.busy 990 50 10)).die 0 = .busy op ∧ op.phase = .busy 990 50 10 ∧ op.kind = .program)) ∧
    ((probing (.busy 990 50 10)).SchedulerLaw ∧ (∃ op, (probing (.busy 990 50 10)).die 0 = .busy op ∧ op.phase = .busy 990 50 10 ∧ op.kind = .reset)) ∧
    ((loadingAt .readout).SchedulerLaw ∧ (∃ op, (loadingAt .readout).die 0 = .busy op ∧ op.phase = .readout ∧ (loadingAt .readout).media.lines = 0 :: [])) ∧
    ((∃ op, (loadingAt .command).die 0 = .busy op ∧ op.phase = .command ∧ op.row = some 300 ∧ op.kind = .read) ∧ (∃ op, (committing .command).die 0 = .busy op ∧ op.row = some 300 ∧ op.kind = .program)) ∧
    ((∃ op, (busyWith served .erase .commit .command).die 0 = .busy op ∧ op.phase = .command ∧ op.row = some 300 ∧ op.kind = .erase) ∧ (∃ op : MediaOp, op.phase = .command ∧ op.row = none ∧ op.kind = .reset)) ∧
    ((∃ op, (committing (.status [])).die 0 = .busy op ∧ op.phase = .status [] ∧ (committing (.status [])).media.lines = 0 :: [])) :=
  ⟨(⟨_, rfl, rfl, rfl⟩),
    ⟨schedulerLaw_busyWith _ _ _ _ (by decide) (by decide), ⟨_, rfl, rfl, rfl⟩⟩,
    ⟨schedulerLaw_busyWith _ _ _ _ (by decide) (by decide), ⟨_, rfl, rfl, rfl⟩⟩,
    ⟨schedulerLaw_busyWith _ _ _ _ (by decide) (by decide), ⟨_, rfl, rfl, rfl⟩⟩,
    ⟨schedulerLaw_busyWith _ _ _ _ (by decide) (by decide), ⟨_, rfl, rfl, rfl⟩⟩,
    ⟨⟨_, rfl, rfl, rfl, rfl⟩, ⟨_, rfl, rfl, rfl⟩⟩,
    ⟨⟨_, rfl, rfl, rfl, rfl⟩, ⟨{ kind := .reset, row := none, image := [], requester := .commit, phase := .command }, rfl, rfl, rfl⟩⟩,
    (⟨_, rfl, rfl, rfl⟩)⟩

theorem witness_MediaOperationCompletes :
    ((∃ op, (committing (.status [])).die 0 = .busy op ∧ op.phase = .status [] ∧ (committing (.status [])).media.lines = 0 :: []) ∧ (0x00#8).getLsbD 0 = false ∧ (0x01#8).getLsbD 0 = true) :=
  ⟨⟨_, rfl, rfl, rfl⟩, by decide, by decide⟩

theorem witness_DieTimeoutTakesTheDieOffline :
    ((∃ op, (committing (.busy 500 50 500)).die 0 = .busy op ∧ op.phase = .busy 500 50 500 ∧ op.kind ≠ .reset) ∧ 50 * 10 ≤ 500) ∧
    ((∃ op, (probing (.busy 500 50 500)).die 0 = .busy op ∧ op.phase = .busy 500 50 500 ∧ op.kind = .reset)) :=
  ⟨⟨⟨_, rfl, rfl, nofun⟩, by decide⟩,
    (⟨_, rfl, rfl, rfl⟩)⟩

theorem witness_FrontReadIsComposed :
    ((loadingAt (.status [])).front.state = .loading 300 4222) ∧
    (afterErase 3 [posted 300, eraseEntry, posted 384] = some [posted 384] ∧ afterErase 2 [posted 300, eraseEntry] = none) ∧
    (Page.Canonical [(4222, 0x0F#8)] ∧ (∀ e ∈ (queued eraseEntry).queue.entries, Page.Canonical e.image)) :=
  ⟨(by decide),
    ⟨by decide, by decide⟩,
    ⟨rfl, by simp only [Page.Canonical]; decide⟩⟩

theorem witness_PassedCommitLeavesTheQueue :
    ((threeEntries (entry (.awaiting .attached) .committing)).queue.entries = [posted 1048576] ++ entry (.awaiting .attached) .committing :: [posted 384] ∧ rowOnDie 0 (entry (.awaiting .attached) .committing).row = true ∧ (∀ x ∈ [posted 1048576], rowOnDie 0 x.row = false) ∧ (entry (.awaiting .attached) .committing).profileFlag = false ∧ (entry (.awaiting .attached) .committing).kind = .program) ∧
    ((threeEntries eraseEntry).queue.entries = [posted 1048576] ++ eraseEntry :: [posted 384] ∧ rowOnDie 0 (eraseEntry).row = true ∧ (∀ x ∈ [posted 1048576], rowOnDie 0 x.row = false) ∧ eraseEntry.kind = .erase ∧ eraseEntry.disposition = .posted) ∧
    ((entry (.awaiting .detached) .committing).disposition = .awaiting .detached) ∧
    ((threeEntries (flaggedEntry none)).queue.entries = [posted 1048576] ++ flaggedEntry none :: [posted 384] ∧ rowOnDie 0 (flaggedEntry none).row = true ∧ (∀ x ∈ [posted 1048576], rowOnDie 0 x.row = false) ∧ (flaggedEntry none).profileFlag = true ∧ (flaggedEntry none).kind = .program ∧ (flaggedEntry none).dropTag = none) ∧
    ((threeEntries (flaggedEntry (some 1))).queue.entries = [posted 1048576] ++ flaggedEntry (some 1) :: [posted 384] ∧ rowOnDie 0 (flaggedEntry (some 1)).row = true ∧ (∀ x ∈ [posted 1048576], rowOnDie 0 x.row = false) ∧ (flaggedEntry (some 1)).dropTag ≠ none) :=
  ⟨⟨by decide, by decide, by decide, by decide, by decide⟩,
    ⟨by decide, by decide, by decide, by decide, by decide⟩,
    (by decide),
    ⟨by decide, by decide, by decide, by decide, by decide, by decide⟩,
    ⟨by decide, by decide, by decide, by decide⟩⟩

theorem witness_FailedCommitIsReported :
    ((threeEntries (entry (.awaiting .attached) .committing)).queue.entries = [posted 1048576] ++ entry (.awaiting .attached) .committing :: [posted 384] ∧ rowOnDie 0 (entry (.awaiting .attached) .committing).row = true ∧ (∀ x ∈ [posted 1048576], rowOnDie 0 x.row = false) ∧ (entry (.awaiting .attached) .committing).disposition = .awaiting .attached) ∧
    ((threeEntries eraseEntry).queue.entries = [posted 1048576] ++ eraseEntry :: [posted 384] ∧ rowOnDie 0 (eraseEntry).row = true ∧ (∀ x ∈ [posted 1048576], rowOnDie 0 x.row = false) ∧ eraseEntry.disposition ≠ .awaiting .attached) :=
  ⟨⟨by decide, by decide, by decide, by decide⟩,
    ⟨by decide, by decide, by decide, by decide⟩⟩

theorem witness_EveryConsequenceIsTaken :
    ((queued (posted 300)).control.state = .service ∧ (queued (posted 300)).control.sequence = .none ∧ (queued (posted 300)).media.services = [] ∧ (queued (posted 300)).MayTake (.grant 0 (.commit (posted 300))) ∧ lineResetting.SequenceDue) :=
  ⟨by decide, by decide, by decide, ⟨rfl, by decide⟩, .inl ⟨rfl, rfl⟩⟩

theorem witness_RequestsAreGrantedOrFailAtOnce :
    ((threeEntries eraseEntry).queue.entries = [posted 1048576] ++ eraseEntry :: [posted 384] ∧ rowOnDie 0 (eraseEntry).row = true ∧ (∀ x ∈ [posted 1048576], rowOnDie 0 x.row = false)) ∧
    ((flushingWith 2).queue.entries = [] ++ posted 300 :: [] ∧ rowOnDie 0 (posted 300).row = true ∧ (flushingWith 2).control.state = .flushing) ∧
    ((∃ r : ServiceRequest, r.op = .profileRead 127) ∧ (∃ r : ServiceRequest, r.op = .noteRead 0) ∧ (∃ r : ServiceRequest, r.op = .noteErase ∧ r.op.isProbe = false) ∧ (∃ r ∈ recovering.media.services, r.op = .openedNote) ∧ recovering.control.nextNotePage = some 1 ∧ (∃ r : ServiceRequest, r.op = .probe 3)) :=
  ⟨⟨by decide, by decide, by decide⟩,
    ⟨by decide, by decide, by decide⟩,
    ⟨⟨⟨_, .awaited⟩, rfl⟩, ⟨⟨_, .awaited⟩, rfl⟩, ⟨⟨_, .awaited⟩, rfl, rfl⟩, ⟨_, List.mem_singleton.2 rfl, rfl⟩, by decide, ⟨⟨_, .awaited⟩, rfl⟩⟩⟩

theorem witness_FreeFallEdgesAct :
    (falling.pins.ffall = true) ∧
    (served.pins.ffall = false ∧ served.drop.state = .calm ∧ served.drop.pending.length < 4 ∧ threeDrops.drop.pending.length < 4 ∧ threeDrops.drop.state = .calm ∧ threeDrops.pins.ffall = false) ∧
    (fullTable.pins.ffall = false ∧ fullTable.drop.state = .calm ∧ fullTable.drop.pending = [waitingDrop 1, waitingDrop 2, waitingDrop 3] ++ [waitingDrop 4] ∧ [waitingDrop 1, waitingDrop 2, waitingDrop 3].length = 3) ∧
    (merging.pins.ffall = false ∧ merging.drop.state = .falling ∧ merging.drop.pending = [] ++ [mergingDrop]) ∧
    (settling.pins.ffall = false ∧ settling.drop.state = .settling ∧ settling.drop.pending = [] ++ [settlingDrop]) ∧
    (served.pins.ffall = false) ∧
    (suspended.pins.ffall = true ∧ suspended.drop.suspended = some 500) ∧
    (highCalm.pins.ffall = true ∧ highCalm.drop.suspended = none ∧ highCalm.drop.state = .calm) ∧
    (highSettling.pins.ffall = true ∧ highSettling.drop.suspended = none ∧ highSettling.drop.state = .settling ∧ highSettling.drop.openOnset = none) ∧
    (falling.pins.ffall = true ∧ falling.drop.suspended = none ∧ falling.drop.openOnset = some 900 ∧ falling.drop.pending = [] ++ [fallingDrop] ∧ falling.drop.state = .falling ∧ falling.drop.latched = some params ∧ params.mergeMs ≠ 0 ∧ (∃ y, fallingDrop.OnsetEnds 900 falling.tick y)) ∧
    (({ falling with drop := { falling.drop with latched := some { params with mergeMs := 0 } } } : State).drop.latched = some { params with mergeMs := 0 }) ∧
    (onsetSettling.pins.ffall = true ∧ onsetSettling.drop.suspended = none ∧ onsetSettling.drop.openOnset = some 900 ∧ onsetSettling.drop.pending = [] ++ [fallingDrop] ∧ onsetSettling.drop.state = .settling) ∧
    ((unlistedDrop).OnsetEnds 900 1000 unlistedDrop) :=
  ⟨(by decide),
    ⟨by decide, by decide, by decide, by decide, by decide, by decide⟩,
    ⟨by decide, by decide, by decide, by decide⟩,
    ⟨by decide, by decide, by decide⟩,
    ⟨by decide, by decide, by decide⟩,
    (by decide),
    ⟨by decide, by decide⟩,
    ⟨by decide, by decide, by decide⟩,
    ⟨by decide, by decide, by decide, by decide⟩,
    ⟨by decide, by decide, by decide, by decide, by decide, by decide, by decide, ⟨_, .inl ⟨[], rfl, by simp, rfl⟩⟩⟩,
    (by decide),
    ⟨by decide, by decide, by decide, by decide, by decide⟩,
    (.inr ⟨by decide, by decide, rfl⟩)⟩

theorem witness_ImpactEdgesAct :
    (settling.pins.fimp = true) ∧
    (served.pins.fimp = false ∧ served.drop.state = .calm ∧ served.control.settings.knockHold = true ∧ served.drop.pending.length < 4) ∧
    (knockOff.pins.fimp = false ∧ knockOff.drop.state = .calm ∧ knockOff.control.settings.knockHold = false) ∧
    (fullTable.pins.fimp = false ∧ fullTable.drop.pending = [waitingDrop 1, waitingDrop 2, waitingDrop 3] ++ [waitingDrop 4] ∧ fullTable.control.settings.knockHold = true ∧ fullTable.drop.state = .calm) ∧
    (falling.pins.fimp = false ∧ falling.drop.state = .falling ∧ falling.drop.pending = [] ++ [fallingDrop] ∧ falling.drop.latched = some params ∧ fallingDrop.impacts = 0 ∧ fallingDrop.onsets = onset :: [] ∧ fallingDrop.kind ≠ .multiple) ∧
    (struckAgain.pins.fimp = false ∧ struckAgain.drop.state = .settling ∧ struckAgain.drop.pending = [] ++ [settlingDrop] ∧ struckAgain.drop.latched = some params) ∧
    (fallenAgain.pins.fimp = false ∧ fallenAgain.drop.state = .falling ∧ fallenAgain.drop.pending = [] ++ [settlingDrop] ∧ settlingDrop.impacts ≠ 0) ∧
    (served.pins.fimp = false) ∧
    (highCalm.pins.fimp = true ∧ highCalm.drop.impactStart = none) ∧
    (settling.pins.fimp = true ∧ settling.drop.impactStart = some 950 ∧ settling.drop.pending = [] ++ [settlingDrop]) :=
  ⟨(by decide),
    ⟨by decide, by decide, by decide, by decide⟩,
    ⟨by decide, by decide, by decide⟩,
    ⟨by decide, by decide, by decide, by decide⟩,
    ⟨by decide, by decide, by decide, by decide, by decide, by decide, by decide⟩,
    ⟨by decide, by decide, by decide, by decide⟩,
    ⟨by decide, by decide, by decide, by decide⟩,
    (by decide),
    ⟨by decide, by decide⟩,
    ⟨by decide, by decide, by decide⟩⟩

theorem witness_DropTimersExpire :
    (merging.drop.mergeTimer = .running 200 200 ∧ 200 ≤ 200 ∧ merging.drop.latched = some params) ∧
    (served.drop.mergeTimer = .stopped) ∧
    ((∃ elapsed interval, ({ merging with drop := { merging.drop with mergeTimer := .running 199 200 } } : State).drop.mergeTimer = .running elapsed interval ∧ elapsed < interval)) ∧
    (settling.drop.settleTimer = .running 2500 2500 ∧ 2500 ≤ 2500 ∧ settling.drop.pending = [] ++ [settlingDrop] ∧ (∃ y, settlingDrop.ClosesTo settling.drop.openOnset settling.drop.impactStart settling.tick false y)) ∧
    ((∃ y, fallingDrop.ClosesTo (some 900) none 1000 false y)) ∧
    (served.drop.settleTimer = .stopped ∧ served.drop.ceilingTimer = .stopped) ∧
    (atCeiling.drop.ceilingTimer = .running 40000 40000 ∧ atCeiling.drop.pending = [] ++ [fallingDrop] ∧ atCeiling.drop.latched = some params ∧ (∃ y, fallingDrop.ClosesTo atCeiling.drop.openOnset atCeiling.drop.impactStart atCeiling.tick true y) ∧ atCeiling.pins.ffall = true ∧ atCeiling.drop.suspended = none) ∧
    (({ atCeiling with pins := { atCeiling.pins with ffall := false } } : State).pins.ffall = false) ∧
    (({ atCeiling with drop := { atCeiling.drop with suspended := some 1 } } : State).drop.suspended ≠ none) :=
  ⟨⟨by decide, by decide, by decide⟩,
    (by decide),
    (⟨_, _, rfl, by decide⟩),
    ⟨by decide, by decide, by decide, ⟨_, _, .inl ⟨rfl, rfl⟩, rfl⟩⟩,
    (⟨_, _, .inr ⟨900, rfl, .inl ⟨[], rfl, by simp, rfl⟩⟩, rfl⟩),
    ⟨by decide, by decide⟩,
    ⟨by decide, by decide, by decide, ⟨_, _, .inr ⟨900, rfl, .inl ⟨[], rfl, by simp, rfl⟩⟩, rfl⟩, by decide, by decide⟩,
    (by decide),
    (by decide)⟩

theorem witness_ReadyDropsAreReportedInOrder :
    (State.reset.drop.loaded = false) ∧
    (fullTable.drop.loaded = true) ∧
    (fullTable.drop.pending.map Drop.number = [1, 2, 3, 4] ∧ (Departure.lost = .failed ∨ Departure.lost = .lost) ∧ ¬ (Departure.withdrawn = .failed ∨ Departure.withdrawn = .lost)) :=
  ⟨(by decide),
    (by decide),
    ⟨by decide, by decide, by decide⟩⟩

theorem witness_GaugeInputsAreCounted :
    (State.reset.gauge.tallying = true) ∧
    (served.gauge.tallying = false ∧ served.GaugeLaw) ∧
    (minuteDue.gauge.gateTicks = 10000 ∧ minuteDue.gauge.gates = 59 ∧ minuteDue.gauge.boundaryTaken = false) :=
  ⟨(by decide),
    ⟨by decide, served_gaugeLaw⟩,
    ⟨by decide, by decide, by decide⟩⟩

theorem witness_GateEndComputesThePeriod :
    ((gateDone 0 .unknown).gauge.gateTicks = 10000 ∧ (gateDone 0 .unknown).gauge.gates ≠ 59 ∧ (gateDone 0 .unknown).gauge.gateCount = 0 ∧ (gateDone 0 .unknown).gauge.state = .unknown ∧ (gateDone 0 .unknown).gauge.changePending = false ∧ (gateDone 0 .unknown).gauge.periods < (gateDone 0 .unknown).control.settings.interval) ∧
    ((gateDone 11000 .valid).gauge.gateCount ≠ 0 ∧ (gateDone 11000 .valid).gauge.state = .valid ∧ (gateDone 11000 .valid).gauge.gateTicks = 10000) ∧
    (({ minuteDue with gauge := { minuteDue.gauge with boundaryTaken := true, periods := 60, changePending := true } } : State).gauge.gates = 59 ∧ ({ minuteDue with gauge := { minuteDue.gauge with boundaryTaken := true, periods := 60, changePending := true } } : State).gauge.boundaryTaken = true ∧ ({ minuteDue with gauge := { minuteDue.gauge with boundaryTaken := true, periods := 60, changePending := true } } : State).gauge.changePending = true) ∧
    (drained.gauge.gateTicks = 10000 ∧ drained.gauge.state = .valid ∧ drained.gauge.gates ≠ 59 ∧ drained.gauge.buckets.length = 8 ∧ drained.gauge.buckets.sum = 9) ∧
    ((gateDone 0 .valid).gauge.buckets.length < 8) ∧
    (served.gauge.gateTicks < 10000 ∧ minuteDue.gauge.gates = 59 ∧ minuteDue.gauge.boundaryTaken = false) :=
  ⟨⟨by decide, by decide, by decide, by decide, by decide, by decide⟩,
    ⟨by decide, by decide, by decide⟩,
    ⟨by decide, by decide, by decide⟩,
    ⟨by decide, by decide, by decide, by decide, by decide⟩,
    (by decide),
    ⟨by decide, by decide, by decide⟩⟩

theorem witness_LevelFollowsTheThresholds :
    ((gateDone 0 .unknown).gauge.state = .unknown ∧ (gateDone 0 .valid).gauge.state = .valid) ∧
    (0 < 1 ∧ nextLevel .critical 16 15 5 = .low ∧ nextLevel .critical 17 15 5 = .normal ∧ nextLevel .low 16 15 5 = .low ∧ nextLevel .normal 15 15 5 = .normal ∧ nextLevel .unknown 5 15 5 = .low) :=
  ⟨⟨by decide, by decide⟩,
    ⟨by decide, by decide, by decide, by decide, by decide, by decide⟩⟩

theorem witness_DerateFactorInterpolates :
    (defaultDerate.Lawful ∧ (-20 : Int) ≤ defaultDerate.p1.temperature ∧ defaultDerate.p4.temperature ≤ 60) ∧
    (defaultDerate.p1.temperature ≤ -20 ∧ (-20 : Int) < defaultDerate.p2.temperature ∧ derateFactor defaultDerate (-1) = 202) :=
  ⟨⟨defaultDerate_lawful, by decide, by decide⟩,
    ⟨by decide, by decide, by decide⟩⟩

theorem witness_BatteryEdgesAct :
    (State.reset.gauge.holding = true ∧ State.reset.pins.pkpres = true ∧ ({ State.reset with pins := { State.reset.pins with pkpres := false } } : State).pins.pkpres = false) ∧
    (served.gauge.holding = false ∧ served.gauge.seated = true ∧ served.gauge.anchor = false ∧ served.pins.pkpres = true) ∧
    (unseated.gauge.holding = false ∧ unseated.gauge.seated = false ∧ unseated.pins.pkpres = false) ∧
    ((gateDone 0 .valid).gauge.holding = false ∧ (gateDone 0 .valid).gauge.seated = true ∧ (gateDone 0 .valid).gauge.anchor = true) :=
  ⟨⟨by decide, by decide, by decide⟩,
    ⟨by decide, by decide, by decide, by decide⟩,
    ⟨by decide, by decide, by decide⟩,
    ⟨by decide, by decide, by decide⟩⟩

theorem witness_SettleEndBeginsStartUp :
    (settled200.control.sequence = .settling 200 ∧ settled200.pins.supgood = true) ∧
    (settledLow.control.sequence = .settling 200 ∧ settledLow.pins.supgood = false ∧ settledLow.media.services = [] ∧ (∀ d, (settledLow.die d).serviceRequest = none) ∧ settledLow.control.nextNotePage = none) :=
  ⟨⟨by decide, by decide⟩,
    ⟨by decide, by decide, by decide, by decide, by decide⟩⟩

theorem witness_StartUpAndScansFollowResults :
    ((standing .probeDieZero).control.sequence = .probeDieZero ∧ (standing .probeDieZero).die 0 = .idle ∧ (dieZeroGone (standing .probeDieZero)).control.sequence = .probeDieZero ∧ (dieZeroGone (standing .probeDieZero)).die 0 ≠ .idle) ∧
    ((standing (.profileScan .startUp 126 none 0)).control.sequence = .profileScan .startUp 126 none 0 ∧ (standing (.profileScan .lineReset 127 none 0)).control.sequence = .profileScan .lineReset 127 none 0 ∧ profileImage ≠ [] ∧ profilePageOk profileImage = true ∧ openedImage ≠ [] ∧ profilePageOk openedImage = false) ∧
    ((standing .none).control.sequence = .none ∧ (standing .none).control.noteUsable = true ∧ (standing (.openedErase .dipRecovery)).control.sequence = .openedErase .dipRecovery ∧ (standing (.openedProgram .dipRecovery)).control.sequence = .openedProgram .dipRecovery) ∧
    ((standing (.probeAdded [1, 2])).control.sequence = .probeAdded [1, 2] ∧ (standing (.probeAdded [])).control.sequence = .probeAdded []) ∧
    ((standing (.noteScan 126 none)).control.sequence = .noteScan 126 none ∧ (standing (.noteScan 127 none)).control.sequence = .noteScan 127 none ∧ notePageOk openedImage = true ∧ notePageOk flushImage = true ∧ notePageOk profileImage = false) ∧
    ((standing (.openedErase noted)).control.sequence = .openedErase noted ∧ (standing (.openedErase noted)).control.noteUsable = true ∧ (standing (.openedProgram noted)).control.sequence = .openedProgram noted) ∧
    ((standing (.lineProbe [])).control.sequence = .lineProbe [] ∧ (standing (.lineProbe [1])).control.sequence = .lineProbe [1]) :=
  ⟨⟨by decide, by decide, by decide, by decide⟩,
    ⟨by decide, by decide, by decide, by decide, by decide, by decide⟩,
    ⟨by decide, by decide, by decide, by decide⟩,
    ⟨by decide, by decide⟩,
    ⟨by decide, by decide, by decide, by decide, by decide⟩,
    ⟨by decide, by decide, by decide⟩,
    ⟨by decide, by decide⟩⟩

theorem witness_NoteOutcomeIsSettled :
    ((∃ t, (served.countersLoaded 0 0).endGaugeHold.Opens noted t) ∧ (∃ t, ({ served with control := { served.control with noteUsable := false } } : State).Opens noted t)) ∧
    (noteIsFlush openedImage = false ∧ noteIsFlush flushImage = true ∧ served.control.noteUsable = true ∧ (∃ t, (served.countersLoaded (noteDropCounter openedImage) (noteSequence openedImage)).endGaugeHold.Opens noted t) ∧ (∀ (queue : HoldQueue) (overflow : Bool), ∃ t, State.Opens { (served.countersLoaded (noteDropCounter flushImage) (noteSequence flushImage)).endGaugeHold with queue := queue, control := { served.control with rowOverflow := overflow } } noted t)) ∧
    (unseated.gauge.seated = false ∧ served.gauge.seated = true ∧ (noteGauge flushImage).valid = true ∧ (noteGauge [(3, 0xFE#8)]).valid = false) ∧
    (State.reset.gauge.holding = true ∧ served.gauge.holding = false ∧ served.pins.pkpres = true ∧ unseated.pins.pkpres = false) :=
  ⟨⟨opens_exists (page := 1) _ (.inr (by decide)), opens_exists (page := 1) _ (.inl rfl)⟩,
    ⟨by decide, by decide, by decide, opens_exists (page := 1) _ (.inr (by decide)), fun _ _ => opens_exists (page := 1) _ (.inr rfl)⟩,
    ⟨by decide, by decide, by decide, by decide⟩,
    ⟨by decide, by decide, by decide, by decide⟩⟩

theorem witness_FlushAndLineResetEnd :
    ((flushingWith 2).control.sequence = .drain ∧ ¬ ((flushingWith 2).queue.entries = [] ∨ (flushingWith 2).control.budget ≤ 1 ∧ ∀ e ∈ (flushingWith 2).queue.entries, e.progress = .waiting)) ∧
    ((flushingWith 1).control.sequence = .drain ∧ (flushingWith 1).control.budget ≤ 1 ∧ (∀ e ∈ (flushingWith 1).queue.entries, e.progress = .waiting) ∧ (flushingWith 1).control.noteUsable = true ∧ 1 ≤ (flushingWith 1).control.budget) ∧
    (flushing.control.sequence = .drain ∧ flushing.queue.entries = [] ∧ (flushingWith 0).control.sequence = .drain ∧ (flushingWith 0).control.budget = 0) ∧
    ((∃ r ∈ (flushWaiting 1).media.services, r.op = .flushNote []) ∧ 1 ≤ (flushWaiting 1).control.budget ∧ (flushWaiting 1).control.state = .flushing ∧ (flushWaiting 1).control.nextNotePage = some 1 ∧ (flushWaiting 0).control.budget = 0) ∧
    ((standing .flushNote).control.sequence = .flushNote) ∧
    (lineResetting.control.sequence = .lineWait ∧ lineResetting.queue.entries = [] ∧ lineResetting.die 0 ≠ .offline ∧ (dieZeroGone lineResetting).control.sequence = .lineWait ∧ (dieZeroGone lineResetting).queue.entries = [] ∧ (dieZeroGone lineResetting).die 0 = .offline) ∧
    (({ lineResetting with queue := (queued (posted 300)).queue } : State).control.sequence = .lineWait ∧ ({ lineResetting with queue := (queued (posted 300)).queue } : State).queue.entries ≠ []) :=
  ⟨⟨by decide, by decide⟩,
    ⟨by decide, by decide, by decide, by decide, by decide⟩,
    ⟨by decide, by decide, by decide, by decide⟩,
    ⟨⟨_, List.mem_singleton.2 rfl, rfl⟩, by decide, by decide, by decide, by decide⟩,
    (by decide),
    ⟨by decide, by decide, by decide, by decide, by decide, by decide⟩,
    ⟨by decide, by decide⟩⟩

theorem witness_ProfilesAreTestedAndApplied :
    (profilePageOk [] = false ∧ profilePageOk profileImage = true ∧ profilePageOk flatImage = true ∧ (clampProfile (decodeProfile profileImage)).live.derate.ascending = true ∧ (clampProfile (decodeProfile flatImage)).live.derate.ascending = false) ∧
    ((∃ p clamped, testProfile profileImage = .accepted p clamped) ∧ testProfile flatImage = .rejected .table true ∧ testProfile [] = .rejected .check false) :=
  ⟨⟨by decide, by decide, by decide, by decide, by decide⟩,
    ⟨⟨_, _, rfl⟩, by decide, by decide⟩⟩

theorem witness_SupplyFallActs :
    (flushing.pins.supgood = false) ∧
    (flushingHigh.pins.supgood = true ∧ flushingHigh.control.state = .flushing) ∧
    (falling.pins.supgood = true ∧ falling.control.state = .service) ∧
    (lineResetting.pins.supgood = true ∧ lineResetting.control.state = .lineReset) ∧
    (settled200.pins.supgood = true ∧ settled200.SequenceLaw ∧ settled200.control.state = .starting) ∧
    (recovering.pins.supgood = true ∧ recovering.SequenceLaw ∧ recovering.control.state = .spent) ∧
    (settled200.QueueLaw ∧ (∀ r ∈ settled200.media.services, r.standing = .noteOnly → r.op.isNoteWrite = true)) ∧
    (recovering.QueueLaw ∧ (∀ r ∈ recovering.media.services, r.standing = .noteOnly → r.op.isNoteWrite = true)) ∧
    ((∃ op, ((probing .command).media.dies.get 0).state = .busy op ∧ op.requester = .service { op := .probe 0, standing := .disregarded }) ∧ (served.media.dies.get 0).state = .idle) :=
  ⟨(by decide),
    ⟨by decide, by decide⟩,
    ⟨by decide, by decide⟩,
    ⟨by decide, by decide⟩,
    ⟨by decide, settled200_sequenceLaw, by decide⟩,
    ⟨by decide, recovering_sequenceLaw, by decide⟩,
    ⟨settled200_queueLaw, by decide⟩,
    ⟨recovering_queueLaw, by decide⟩,
    ⟨⟨_, rfl, rfl⟩, by decide⟩⟩

theorem witness_SupplyRiseBeginsTheRecovery :
    (served.pins.supgood = true) ∧
    (flushing.pins.supgood = false ∧ flushing.control.state ≠ .spent) ∧
    (spentNoNote.pins.supgood = false ∧ spentNoNote.control.state = .spent ∧ spentNoNote.control.noteUsable = false ∧ spentNoNote.drop.loaded = true ∧ spentNoNote.report.masked = false ∧ spentNoNote.drop.state = .calm ∧ spentNoNote.drop.pending = []) ∧
    (spent.pins.supgood = false ∧ spent.control.state = .spent ∧ spent.control.noteUsable = true ∧ spent.control.nextNotePage = some 1 ∧ spent.drop.loaded = true ∧ spent.report.masked = false ∧ spent.drop.state = .calm ∧ spent.drop.pending = []) ∧
    ((∃ t, spent.Opens .dipRecovery t) ∧ (∃ t, spentNoNote.Opens .dipRecovery t) ∧ (∃ t, ({ spent with control := { spent.control with nextNotePage := some 127 } } : State).Opens .dipRecovery t)) ∧
    (unloaded.control.state = .spent ∧ unloaded.pins.supgood = false ∧ unloaded.drop.loaded = false ∧ unloaded.report.masked = true ∧ unloaded.gauge.nominalCu = 108800000 ∧ unloaded.gauge.tallying = false ∧ unloadedApplied.drop.state ≠ .calm ∧ unloadedApplied.drop.pending.map (fun x => { x with powerDip := true }) = [] ++ [{ fallingDrop with powerDip := true }] ∧ (∃ y, Drop.ClosesTo unloadedApplied.drop.openOnset unloadedApplied.drop.impactStart unloaded.tick false { fallingDrop with powerDip := true } y) ∧ (∃ t, unloadedApplied.Opens .dipRecovery t)) :=
  ⟨(by decide),
    ⟨by decide, by decide⟩,
    ⟨by decide, by decide, by decide, by decide, by decide, by decide, by decide⟩,
    ⟨by decide, by decide, by decide, by decide, by decide, by decide, by decide, by decide⟩,
    ⟨opens_exists (page := 1) _ (.inr rfl), opens_exists (page := 1) _ (.inl rfl), opens_exists (page := 127) _ (.inr rfl)⟩,
    ⟨by decide, by decide, by decide, by decide, by decide, by decide, by decide, by decide, ⟨_, _, .inr ⟨900, by decide, .inl ⟨[], rfl, by simp, rfl⟩⟩, rfl⟩, opens_exists (page := 1) _ (.inr (by decide))⟩⟩

theorem witness_PostingLimitFollowsLineAndLevel :
    (served.pins.rsvgood = true ∧ served.control.state ≠ .flushing) ∧
    (flushing.pins.rsvgood = true ∧ flushing.control.state = .flushing) ∧
    (({ served with pins := { served.pins with rsvgood := false } } : State).pins.rsvgood = false ∧ served.gauge.derived.level = .unknown) ∧
    (2 ≤ 2) :=
  ⟨⟨by decide, by decide⟩,
    ⟨by decide, by decide⟩,
    ⟨by decide, by decide⟩,
    (by decide)⟩

theorem witness_LineResetBegins :
    (State.reset.control.state ≠ .service) ∧
    ((queued (posted 300)).control.state = .service ∧ (∀ e ∈ (queued (posted 300)).queue.entries, e.disposition = .posted)) ∧
    (awaitingEntry.control.state = .service ∧ awaitingEntry.queue.entries = [posted 300] ++ [entry (.awaiting .attached) .waiting] ∧ (∀ x ∈ [posted 300], x.disposition = .posted)) ∧
    ((committing .command).control.state = .service ∧ (committing .command).queue.entries = [] ++ [entry (.awaiting .attached) .committing]) :=
  ⟨(by decide),
    ⟨by decide, by decide⟩,
    ⟨by decide, by decide, by decide⟩,
    ⟨by decide, by decide⟩⟩

theorem witness_RowsTranslate :
    ((addressOf 0x00#8 0x00#8 0x80#8 0x20#8 0x00#8).reserved = true ∧ (addressOf 0x00#8 0x00#8 0x80#8 0x40#8 0x00#8).through = true ∧ ¬ ((addressOf 0x00#8 0x00#8 0x80#8 0x40#8 0x00#8).reserved = true ∨ (addressOf 0x00#8 0x00#8 0x80#8 0x40#8 0x00#8).through = true ∧ OpKind.program = .read)) ∧
    ((addressOf 0x00#8 0x00#8 0x80#8 0x10#8 0x80#8).absolute = false ∧ (addressOf 0x00#8 0x00#8 0x80#8 0x10#8 0x80#8).column = 4224) ∧
    ((addressOf 0x00#8 0x00#8 0x80#8 0x80#8 0x01#8).absolute = true ∧ ({ served.control.settings with serviceAccess := true } : Settings).serviceAccess = true ∧ (addressOf 0x00#8 0x00#8 0x80#8 0x80#8 0x01#8).column = 1) ∧
    ((addressOf 0x0F#8 0xFE#8 0xFF#8 0x10#8 0x7F#8).absolute = false ∧ (addressOf 0x0F#8 0xFE#8 0xFF#8 0x10#8 0x7F#8).row.toNat / 1048576 = 0 ∧ (addressOf 0x0F#8 0xFE#8 0xFF#8 0x10#8 0x7F#8).column = 4223 ∧ served.control.settings.windows[0]? = some defaultWindowZero ∧ (addressOf 0x0F#8 0xFE#8 0xFF#8 0x10#8 0x7F#8).row.toNat % 1048576 / 128 = 8189) ∧
    (served.control.settings.windows[13]? = some defaultWindowOther ∧ (addressOf 0xDF#8 0xFF#8 0xFF#8 0x00#8 0x00#8).row.toNat / 1048576 = 13) ∧
    ((addressOf 0xE0#8 0x00#8 0x7F#8 0x00#8 0x00#8).row.toNat / 1048576 = 14 ∧ (addressOf 0xE0#8 0x00#8 0x7F#8 0x00#8 0x00#8).row.toNat % 1048576 = 127) ∧
    ((addressOf 0xF0#8 0x00#8 0x80#8 0x00#8 0x00#8).row.toNat / 1048576 = 15 ∧ (addressOf 0xF0#8 0x00#8 0x80#8 0x00#8 0x00#8).row.toNat % 1048576 = 128) ∧
    ((addressOf 0x0F#8 0xFF#8 0xFF#8 0x80#8 0x00#8).absolute = true ∧ served.control.settings.serviceAccess = false) ∧
    (({ served.control.settings with serviceAccess := true } : Settings).serviceAccess = true ∧ (addressOf 0x0F#8 0xFF#8 0xFF#8 0x80#8 0x00#8).column = 0 ∧ (addressOf 0x0F#8 0xFF#8 0xFF#8 0x80#8 0x00#8).row.toNat / 128 = 8191 ∧ (addressOf 0x00#8 0x01#8 0x00#8 0x80#8 0x00#8).row.toNat / 128 = 2 ∧ (addressOf 0x00#8 0x00#8 0xFF#8 0x80#8 0x00#8).row.toNat / 128 = 1) ∧
    ((∃ w ∈ served.control.settings.windows, w.enabled = true ∧ w.base ≤ 2 ∧ 2 < w.base + w.extent)) :=
  ⟨⟨by decide, by decide, by decide⟩,
    ⟨by decide, by decide⟩,
    ⟨by decide, by decide, by decide⟩,
    ⟨by decide, by decide, by decide, by decide, by decide⟩,
    ⟨by decide, by decide⟩,
    ⟨by decide, by decide⟩,
    ⟨by decide, by decide⟩,
    ⟨by decide, by decide⟩,
    ⟨by decide, by decide, by decide, by decide, by decide⟩,
    (⟨defaultWindowZero, by decide, by decide, by decide, by decide⟩)⟩

theorem witness_WindowsSettleInOrder :
    (defaultWindows.length = (List.replicate 14 defaultWindowZero).length ∧ (∀ w ∈ defaultWindows, w.enabled = true → 1 ≤ w.extent) ∧ defaultWindows[13]? = some defaultWindowOther ∧ (List.replicate 14 defaultWindowZero)[13]? = some defaultWindowZero) :=
  ⟨by decide, by decide, by decide, by decide⟩

theorem witness_FailedRowIsAdded :
    (([] : List FailedRow).length ≤ 16 ∧ (sixteenRows).length = 16 ∧ (⟨0, some 0⟩ : FailedRow) ∈ sixteenRows ∧ (∀ x ∈ sixteenRows, x.block ≠ 16) ∧ (∃ x ∈ sixteenRows, x.block = 15)) :=
  ⟨by decide, by decide, by decide, by decide, by decide⟩

theorem witness_ReportPagesShowTheState :
    (2 ≤ 2 ∧ 25 < 4224 ∧ 4224 - 1 < 4224) ∧
    (0 < 128 ∧ 31 < 32 ∧ refusedOnce.ring[0]? = some refusalRecord ∧ 32 * 1 ≤ 4095) :=
  ⟨⟨by decide, by decide, by decide⟩,
    ⟨by decide, by decide, by decide, by decide⟩⟩

theorem witness_RecordsShowTheirFields :
    ((∃ x, (recordOf (.start startPayload)).payload = .start x) ∧ startPayload.rows = some ⟨1, true⟩ ∧ startPayload.drained = some ⟨1, 2, true⟩ ∧ (∃ x, (recordOf (.drop (fallingDrop.toRecord 9))).payload = .drop x) ∧ (∃ x, (recordOf (.battery batteryPayload)).payload = .battery x) ∧ (∃ x, (recordOf (.commitFail commitFailPayload)).payload = .commitFail x) ∧ (∃ x, (recordOf (.dieOffline dieOfflinePayload)).payload = .dieOffline x) ∧ (∃ x, (recordOf (.profile profilePayload)).payload = .profile x) ∧ profilePayload.reason = some .table ∧ 13 < 16 ∧ 15 < 16 ∧ (∃ x, refusalRecord.payload = .refusal x) ∧ (recordOf (.sensor (.suspended 1 none 10000))).payload = .sensor (.suspended 1 none 10000) ∧ (recordOf (.sensor (.resumed 4))).payload = .sensor (.resumed 4)) :=
  ⟨⟨_, rfl⟩, by decide, by decide, ⟨_, rfl⟩, ⟨_, rfl⟩, ⟨_, rfl⟩, ⟨_, rfl⟩, ⟨_, rfl⟩, by decide, by decide, by decide, ⟨_, rfl⟩, by decide, by decide⟩

theorem witness_NotesReadBack :
    (4294967295 < 4294967296 ∧ 255 < 256 ∧ (∀ r ∈ sixteenRows, r.block < 32768 ∧ ∀ p, r.page = some p → p < 128)) ∧
    (15 < 16 ∧ sixteenRows[15]? = some ⟨15, some 15⟩ ∧ ([] : List FailedRow).length ≤ 0 ∧ 98 ≤ 98 ∧ 95 < 96) ∧
    ((∃ part, ([[], [⟨0, none⟩]] : List (List FailedRow))[1]? = some part) ∧ 32767 < 32768) :=
  ⟨⟨by decide, by decide, sixteenRows_fit⟩,
    ⟨by decide, by decide, by decide, by decide, by decide⟩,
    ⟨⟨_, rfl⟩, by decide⟩⟩

theorem witness_PagesAreCheckedAndDecoded :
    (Page.Canonical [] ∧ Page.Canonical profileImage ∧ 4223 < 4224 ∧ (0, 0x31#8) ∈ profileImage ∧ (∀ b, (2, b) ∉ profileImage) ∧ ((37, (decodeProfile profileImage).live.derate.p4) : Nat × DeratePoint) ∈ [(28, (decodeProfile profileImage).live.derate.p1), (37, (decodeProfile profileImage).live.derate.p4)] ∧ (∃ x, (decodeProfile profileImage).live.windows[13]? = some x)) :=
  ⟨rfl, rfl, by decide, by decide, by intro b h; revert h; simp [profileImage], by decide, ⟨_, rfl⟩⟩

theorem witness_ReportLawIsKept :
    (waiting.ReportLaw ∧ (∃ t, step waiting = .next t)) :=
  ⟨waiting_reportLaw, ⟨_, rfl⟩⟩

theorem witness_GaugeLawIsKept :
    (waiting.GaugeLaw ∧ (∃ t, step waiting = .next t)) :=
  ⟨waiting_gaugeLaw, ⟨_, rfl⟩⟩

theorem witness_QueueLawIsKept :
    (waiting.QueueLaw ∧ (∃ t, step waiting = .next t)) :=
  ⟨waiting_queueLaw, ⟨_, rfl⟩⟩

theorem witness_FailedRowLawIsKept :
    (waiting.FailedRowLaw ∧ (∃ t, step waiting = .next t)) :=
  ⟨waiting_failedRowLaw, ⟨_, rfl⟩⟩

theorem witness_AddressLawIsKept :
    (waiting.AddressLaw ∧ (∃ t, step waiting = .next t)) :=
  ⟨waiting_addressLaw, ⟨_, rfl⟩⟩

theorem witness_CommitLawIsKept :
    (waiting.CommitLaw ∧ (∃ t, step waiting = .next t)) :=
  ⟨waiting_commitLaw, ⟨_, rfl⟩⟩

theorem witness_SchedulerLawIsKept :
    (waiting.SchedulerLaw ∧ (∃ t, step waiting = .next t)) :=
  ⟨waiting_schedulerLaw, ⟨_, rfl⟩⟩

theorem witness_PageLawIsKept :
    (waiting.PageLaw ∧ (∃ t, step waiting = .next t)) :=
  ⟨waiting_pageLaw, ⟨_, rfl⟩⟩

theorem witness_DropLawIsKept :
    (dropped.QueueLaw ∧ dropped.DropLaw ∧ (∃ t, step dropped = .next t)) ∧
    (dropped.ReportLaw ∧ dropped.DropRecordLaw ∧ dropped.dropNumbers = [0xFFFFFFFE#32, 0xFFFFFFFF#32, 0#32] ∧ dropped.queue.entries.filterMap Entry.dropTag = [0xFFFFFFFF#32, 0#32]) ∧
    (waiting.QueueLaw ∧ waiting.DropLaw ∧ waiting.DropRecordLaw ∧ (∃ t, step waiting = .next t)) :=
  ⟨⟨dropped_queueLaw, dropped_dropLaw, ⟨_, rfl⟩⟩,
    ⟨dropped_reportLaw, dropped_dropRecordLaw, by decide, by decide⟩,
    ⟨waiting_queueLaw, waiting_dropLaw, waiting_dropRecordLaw, ⟨_, rfl⟩⟩⟩

theorem witness_GrantsObeyGateBudgetAndPatience :
    ((queued (posted 300)).grantFor 0 = some (.commit (posted 300))) ∧
    (contested.grantFor 0 = some (.front 300 true)) ∧
    (({ contested with media := { contested.media with dies := ⟨⟨.idle, 4⟩, ⟨.offline, 0⟩, ⟨.offline, 0⟩, ⟨.offline, 0⟩⟩ } } : State).grantFor 0 = some (.commit (posted 300))) ∧
    (({ contested with media := { contested.media with services := [{ op := .noteRead 0, standing := .awaited }] } } : State).grantFor 0 = some (.service { op := .noteRead 0, standing := .awaited })) ∧
    ((flushingWith 2).grantFor 0 = some (.commit (posted 300)) ∧ (flushingWith 1).grantFor 0 = none) ∧
    (served.grantFor 0 = none ∧ contested.offer 0 = some (posted 300) ∧ contested.grantable (posted 300) = true ∧ ¬ (posted 300).progress = .committing) :=
  ⟨(by decide),
    (by decide),
    (by decide),
    (by decide),
    ⟨by decide, by decide⟩,
    ⟨by decide, by decide, by decide, by decide⟩⟩

end Sys2Proof.Tests
end

section
/-! The scope chapter (00_scope.md): how a step takes its command (log entry 1), and what TICK does (R1, section 5.2). -/

namespace Sys2Proof.Machine

/-! ### Steps -/

theorem step_of_pending_nil {s : State} (h : s.pending = []) : step s = .next s := by
  simp [step, h]

theorem step_of_pending_cons {s : State} {c : Instr} {rest : List Instr} (h : s.pending = c :: rest) :
    step s = exec c (s.withPending rest) := by
  simp [step, h]

/-! ### What a tick does to each running time -/

@[simp] theorem Timer.advance_stopped : Timer.advance .stopped = .stopped := rfl

@[simp] theorem Timer.advance_running (elapsed interval : Nat) :
    Timer.advance (.running elapsed interval) = .running (elapsed + 1) interval := rfl

@[simp] theorem Phase.advance_busy (start : Tick) (timeoutMs elapsed : Nat) :
    Phase.advance (.busy start timeoutMs elapsed) = .busy start timeoutMs (elapsed + 1) := rfl

theorem Phase.advance_of_not_busy {p : Phase} (h : ∀ start timeoutMs elapsed, p ≠ .busy start timeoutMs elapsed) :
    p.advance = p := by
  cases p with
  | busy start timeoutMs elapsed => exact absurd rfl (h start timeoutMs elapsed)
  | command => rfl
  | readout => rfl
  | status data => rfl

@[simp] theorem Sequence.advance_settling (elapsed : Nat) :
    Sequence.advance (.settling elapsed) = .settling (elapsed + 1) := rfl

theorem Sequence.advance_of_not_settling {q : Sequence} (h : ∀ elapsed, q ≠ .settling elapsed) : q.advance = q := by
  cases q with
  | settling elapsed => exact absurd rfl (h elapsed)
  | none => rfl
  | probeDieZero => rfl
  | profileScan purpose page best failed => rfl
  | probeAdded rest => rfl
  | noteScan page best => rfl
  | openedErase opening => rfl
  | openedProgram opening => rfl
  | lineProbe rest => rfl
  | lineWait => rfl
  | drain => rfl
  | flushNote => rfl

@[simp] theorem DieRecord.advance_patience (r : DieRecord) : r.advance.patience = r.patience := by
  unfold DieRecord.advance
  split <;> rfl

theorem DieRecord.advance_state_of_busy {r : DieRecord} {op : MediaOp} (h : r.state = .busy op) :
    r.advance.state = .busy { op with phase := op.phase.advance } := by
  simp [DieRecord.advance, h]

/-- A tick shows in a die's state only while the die's operation is in its busy interval. -/
theorem DieRecord.advance_state_of_not_busy {r : DieRecord}
    (h : ∀ op start timeoutMs elapsed, r.state = .busy op → op.phase ≠ .busy start timeoutMs elapsed) :
    r.advance.state = r.state := by
  cases hr : r.state with
  | idle => simp [DieRecord.advance, hr]
  | offline => simp [DieRecord.advance, hr]
  | busy op =>
    have hphase : op.phase.advance = op.phase := Phase.advance_of_not_busy (h op · · · hr)
    rw [advance_state_of_busy hr, hphase]

theorem DropMonitor.eq_advance_of_mem_timers {d : DropMonitor} {before after : Timer}
    (h : (before, after) ∈ [(d.mergeTimer, d.mergeTimer.advance), (d.settleTimer, d.settleTimer.advance),
      (d.ceilingTimer, d.ceilingTimer.advance)]) : after = before.advance := by
  simp only [List.mem_cons, List.not_mem_nil, or_false, Prod.mk.injEq] at h
  obtain ⟨rfl, rfl⟩ | ⟨rfl, rfl⟩ | ⟨rfl, rfl⟩ := h <;> rfl

/-! ### TICK -/

/-- The state one tick later: the counter, the dies, the drop timers, the gate and the sequence. -/
def State.ticked (s : State) : State :=
  s.withTick (s.tick + 1)
    |>.withMedia { s.media with dies := s.media.dies.map DieRecord.advance }
    |>.withDrop s.drop.advance
    |>.withGauge { s.gauge with gateTicks := s.gauge.gateTicks + 1 }
    |>.withSequence s.control.sequence.advance

theorem exec_tick (s : State) : exec .tick s = .next s.ticked := rfl

theorem State.ticked_tick_toNat (s : State) : s.ticked.tick.toNat = (s.tick.toNat + 1) % 4294967296 := by
  simp [State.ticked, BitVec.toNat_add]

@[simp] theorem State.ticked_control (s : State) :
    s.ticked.control = { s.control with sequence := s.control.sequence.advance } := rfl

@[simp] theorem State.ticked_media (s : State) :
    s.ticked.media = { s.media with dies := s.media.dies.map DieRecord.advance } := rfl

@[simp] theorem State.ticked_drop (s : State) : s.ticked.drop = s.drop.advance := rfl

@[simp] theorem State.ticked_gauge (s : State) :
    s.ticked.gauge = { s.gauge with gateTicks := s.gauge.gateTicks + 1 } := rfl

@[simp] theorem State.ticked_die (s : State) (d : Die) : s.ticked.die d = (s.media.dies.get d).advance.state := by
  simp [State.die]

@[simp] theorem State.ticked_frame (s : State) :
    s.ticked.pins = s.pins ∧ s.ticked.front = s.front ∧ s.ticked.queue = s.queue ∧ s.ticked.report = s.report ∧
    s.ticked.free = s.free ∧ s.ticked.pending = s.pending := by
  simp [State.ticked]

theorem State.ticked_die_of_busy {s : State} {d : Die} {op : MediaOp} {start : Tick} {timeoutMs elapsed : Nat}
    (hd : s.die d = .busy op) (hp : op.phase = .busy start timeoutMs elapsed) :
    s.ticked.die d = .busy { op with phase := .busy start timeoutMs (elapsed + 1) } := by
  rw [State.ticked_die, DieRecord.advance_state_of_busy hd, hp, Phase.advance_busy]

theorem State.ticked_die_of_not_busy {s : State} {d : Die}
    (h : ∀ op start timeoutMs elapsed, s.die d = .busy op → op.phase ≠ .busy start timeoutMs elapsed) :
    s.ticked.die d = s.die d := by
  rw [State.ticked_die]
  exact DieRecord.advance_state_of_not_busy h

/-! ### The obligations -/

/-- Settles O1. -/
theorem stepTakesTheFrontCommand : Obligations.StepTakesTheFrontCommand :=
  ⟨fun _ _ _ => step_of_pending_cons, fun _ => step_of_pending_nil⟩

/-- Settles O43: `State.ticked` is the state TICK answers, and each block of it is read off by its own lemma. -/
theorem tickAdvancesTime : Obligations.TickAdvancesTime := by
  intro s
  refine ⟨s.ticked, exec_tick s, s.ticked_tick_toNat, s.ticked_gauge,
    ⟨_, _, _, s.ticked_drop, ?timers⟩,
    ⟨_, s.ticked_control, ?settling, Sequence.advance_of_not_settling⟩,
    ⟨_, s.ticked_media, ?dies⟩, s.ticked_frame⟩
  case timers =>
    intro before after hmem
    obtain rfl := DropMonitor.eq_advance_of_mem_timers hmem
    constructor
    · rintro rfl
      exact Timer.advance_stopped
    · rintro elapsed interval rfl
      exact Timer.advance_running elapsed interval
  case settling =>
    intro elapsed hsettling
    rw [hsettling, Sequence.advance_settling]
  case dies =>
    intro d
    exact ⟨by simp, fun _ _ _ _ => State.ticked_die_of_busy, State.ticked_die_of_not_busy⟩

end Sys2Proof.Machine
end

section
/-! The window table (01_windows_and_address_translation.md): candidates are settled in ascending number (R5, R6). -/

namespace Sys2Proof.Machine

/-! ### One candidate (R5) -/

/-- An enabled entry has a block. -/
def Window.Nonempty (w : Window) : Prop := w.enabled = true → 1 ≤ w.extent

/-- Two ranges with a block each have one in common where neither ends before the other begins. -/
theorem rangesMeet_iff {c w : Window} (hc : 1 ≤ c.extent) (hw : 1 ≤ w.extent) :
    rangesMeet c w = true ↔ ∃ b, c.base ≤ b ∧ b < c.base + c.extent ∧ w.base ≤ b ∧ b < w.base + w.extent := by
  simp only [rangesMeet, Bool.and_eq_true, decide_eq_true_eq]
  constructor
  · rintro ⟨h1, h2⟩
    exact ⟨max c.base w.base, by omega, by omega, by omega, by omega⟩
  · rintro ⟨b, h1, h2, h3, h4⟩
    omega

/-- Blocks 0 and 1 lie outside a range that begins at block 2 or above: condition 3 follows from condition 1. -/
theorem candidateValid_iff (installed : Nat) (lower : List Window) (c : Window) :
    candidateValid installed lower c = true ↔ (c.enabled = true →
      2 ≤ c.base ∧ 1 ≤ c.extent ∧ c.extent ≤ 8192 ∧ c.base + c.extent ≤ installed * 8192 ∧
      ∀ w ∈ lower, w.enabled = true → rangesMeet c w = false) := by
  have blocks (hb : 2 ≤ c.base) : rangeHas c 0 = false ∧ rangeHas c 1 = false := by
    simp only [rangeHas, Bool.and_eq_false_iff, decide_eq_false_iff_not]
    omega
  cases he : c.enabled
  · simp [candidateValid, he]
  · simp only [candidateValid, he, Bool.not_true, Bool.false_or, Bool.and_eq_true, decide_eq_true_eq, List.all_eq_true,
      Bool.not_eq_true', Bool.and_eq_false_imp, true_implies]
    constructor
    · rintro ⟨⟨⟨⟨⟨⟨hb, hx⟩, hlast⟩, hin⟩, -⟩, -⟩, hmeet⟩
      exact ⟨hb, hx, hlast, hin, hmeet⟩
    · rintro ⟨hb, hx, hlast, hin, hmeet⟩
      exact ⟨⟨⟨⟨⟨⟨hb, hx⟩, hlast⟩, hin⟩, (blocks hb).1⟩, (blocks hb).2⟩, hmeet⟩

/-- The model's test of a candidate is R5's, where the final entries below it have a block each. -/
theorem candidateValid_iff_acceptable {installed : Nat} {lower : List Window} {c : Window}
    (hl : ∀ w ∈ lower, w.Nonempty) : candidateValid installed lower c = true ↔ c.Acceptable installed lower := by
  rw [candidateValid_iff]
  unfold Window.Acceptable
  refine forall_congr' fun _ => and_congr_right fun hb => and_congr_right fun hx => and_congr_right fun _ =>
    and_congr_right fun _ => ?_
  have outside : ∀ b ∈ [0, 1], ¬ (c.base ≤ b ∧ b < c.base + c.extent) := by
    intro b hmem
    have : b ≤ 1 := by simp at hmem; omega
    omega
  rw [and_iff_right outside]
  refine forall₂_congr fun w hw => forall_congr' fun he => ?_
  rw [← Bool.not_eq_true, rangesMeet_iff hx (hl w hw he), not_exists]

/-! ### The table (R6) -/

theorem settleWindows_cons_of_valid {installed : Nat} {b c : Window} {befores candidates final : List Window}
    (h : candidateValid installed final c = true) :
    settleWindows installed (b :: befores) (c :: candidates) final =
      settleWindows installed befores candidates (final ++ [c]) := by
  rw [settleWindows, if_pos h]

theorem settleWindows_cons_of_invalid {installed : Nat} {b c : Window} {befores candidates final : List Window}
    (h : ¬ candidateValid installed final c = true) :
    settleWindows installed (b :: befores) (c :: candidates) final =
      ((settleWindows installed befores candidates (final ++ [b])).1,
        final.length :: (settleWindows installed befores candidates (final ++ [b])).2) := by
  rw [settleWindows, if_neg h]

/-- What has been settled stays in front, with one final entry for each entry before. -/
theorem settleWindows_extends (installed : Nat) (before candidates final : List Window) :
    ∃ rest, (settleWindows installed before candidates final).1 = final ++ rest ∧ rest.length = before.length := by
  induction before generalizing candidates final with
  | nil => exact ⟨[], by simp [settleWindows], rfl⟩
  | cons b befores ih =>
    cases candidates with
    | nil => exact ⟨b :: befores, rfl, rfl⟩
    | cons c candidates =>
      by_cases hv : candidateValid installed final c = true
      · obtain ⟨rest, hrest, hlen⟩ := ih candidates (final ++ [c])
        exact ⟨c :: rest, by simp [settleWindows_cons_of_valid hv, hrest], by simp [hlen]⟩
      · obtain ⟨rest, hrest, hlen⟩ := ih candidates (final ++ [b])
        exact ⟨b :: rest, by simp [settleWindows_cons_of_invalid hv, hrest], by simp [hlen]⟩

theorem settleWindows_length (installed : Nat) (before candidates final : List Window) :
    (settleWindows installed before candidates final).1.length = final.length + before.length := by
  obtain ⟨rest, hrest, hlen⟩ := settleWindows_extends installed before candidates final
  rw [hrest, List.length_append, hlen]

/-- The numbers rejected are those of windows settled from here on. -/
theorem le_of_mem_settleWindows_rejected {installed : Nat} {before candidates final : List Window} {n : Nat}
    (h : n ∈ (settleWindows installed before candidates final).2) : final.length ≤ n := by
  induction before generalizing candidates final with
  | nil => simp [settleWindows] at h
  | cons b befores ih =>
    cases candidates with
    | nil => simp [settleWindows] at h
    | cons c candidates =>
      by_cases hv : candidateValid installed final c = true
      · rw [settleWindows_cons_of_valid hv] at h
        have := ih h
        simp at this
        omega
      · rw [settleWindows_cons_of_invalid hv, List.mem_cons] at h
        rcases h with rfl | h
        · exact le_rfl
        · have := ih h
          simp at this
          omega

/-- Once number `final.length` is settled as `x`, the entries below it, its own entry and its acceptance stand. -/
theorem settleWindows_snoc (installed : Nat) (before candidates final : List Window) (x : Window) :
    (settleWindows installed before candidates (final ++ [x])).1.take final.length = final ∧
    (settleWindows installed before candidates (final ++ [x])).1[final.length]? = some x ∧
    final.length ∉ (settleWindows installed before candidates (final ++ [x])).2 := by
  obtain ⟨rest, hrest, -⟩ := settleWindows_extends installed before candidates (final ++ [x])
  refine ⟨by simp [hrest], by simp [hrest], fun h => ?_⟩
  have := le_of_mem_settleWindows_rejected h
  simp at this

/-- What holds of every entry before, and of every candidate that is taken, holds of every final entry. -/
theorem settleWindows_forall {P : Window → Prop} {installed : Nat} {before candidates final : List Window}
    (hv : ∀ lower c, candidateValid installed lower c = true → P c) (hb : ∀ w ∈ before, P w) (hf : ∀ w ∈ final, P w) :
    ∀ w ∈ (settleWindows installed before candidates final).1, P w := by
  induction before generalizing candidates final with
  | nil => simpa [settleWindows] using hf
  | cons b befores ih =>
    obtain ⟨hb, hbs⟩ := List.forall_mem_cons.1 hb
    cases candidates with
    | nil =>
      intro w hw
      rcases List.mem_append.1 hw with hw | hw
      · exact hf w hw
      · exact List.forall_mem_cons.2 ⟨hb, hbs⟩ w hw
    | cons c candidates =>
      have snoc {x : Window} (hx : P x) : ∀ w ∈ final ++ [x], P w :=
        List.forall_mem_append.2 ⟨hf, List.forall_mem_singleton.2 hx⟩
      by_cases hc : candidateValid installed final c = true
      · rw [settleWindows_cons_of_valid hc]
        exact ih hbs (snoc (hv final c hc))
      · rw [settleWindows_cons_of_invalid hc]
        exact ih hbs (snoc hb)

/-- R5 at one number: the candidate where it is valid against the final entries below it, else the entry before. -/
def SettledAt (installed : Nat) (settled : List Window × List Nat) (n : Nat) (b c : Window) : Prop :=
  (candidateValid installed (settled.1.take n) c = true → settled.1[n]? = some c ∧ n ∉ settled.2) ∧
  (¬ candidateValid installed (settled.1.take n) c = true → settled.1[n]? = some b ∧ n ∈ settled.2)

/-- A number below those still rejected may be added to them, or not, without a change above it. -/
theorem SettledAt.reject {installed m n : Nat} {final : List Window} {rejected : List Nat} {b c : Window}
    (h : SettledAt installed (final, rejected) n b c) (hn : n ≠ m) : SettledAt installed (final, m :: rejected) n b c := by
  unfold SettledAt at h ⊢
  simpa [hn] using h

theorem settleWindows_settledAt {installed : Nat} {before candidates : List Window} (final : List Window)
    (i : Nat) {b c : Window} (hb : before[i]? = some b) (hc : candidates[i]? = some c) :
    SettledAt installed (settleWindows installed before candidates final) (final.length + i) b c := by
  induction before generalizing candidates final i with
  | nil => simp at hb
  | cons b' befores ih =>
    cases candidates with
    | nil => simp at hc
    | cons c' candidates =>
      have later (x : Window) (j : Nat) (hj : i = j + 1) :
          SettledAt installed (settleWindows installed befores candidates (final ++ [x])) (final.length + i) b c := by
        subst hj
        have := ih (final ++ [x]) j (by simpa using hb) (by simpa using hc)
        rwa [List.length_append, List.length_singleton, Nat.add_assoc, Nat.add_comm 1 j] at this
      by_cases hv : candidateValid installed final c' = true
      · rw [settleWindows_cons_of_valid hv]
        cases i with
        | zero =>
          obtain rfl : c' = c := by simpa using hc
          obtain ⟨hbelow, hentry, hnumber⟩ := settleWindows_snoc installed befores candidates final c'
          exact ⟨fun _ => ⟨hentry, hnumber⟩, fun h => absurd (by rw [Nat.add_zero, hbelow]; exact hv) h⟩
        | succ j => exact later c' j rfl
      · rw [settleWindows_cons_of_invalid hv]
        cases i with
        | zero =>
          obtain rfl : c' = c := by simpa using hc
          obtain rfl : b' = b := by simpa using hb
          obtain ⟨hbelow, hentry, -⟩ := settleWindows_snoc installed befores candidates final b'
          exact ⟨fun h => absurd (by rw [Nat.add_zero, hbelow] at h; exact h) hv, fun _ => ⟨hentry, List.mem_cons_self⟩⟩
        | succ j => exact (later b' j rfl).reject (by omega)

/-- Settles O45: `settleWindows_settledAt` at the start of the table, with the model's test of a candidate read as R5's. -/
theorem windowsSettleInOrder : Obligations.WindowsSettleInOrder := by
  intro installed before candidates hlen hbefore settled
  refine ⟨by simp [settled, settleWindows_length], fun i b c hb hc => ?_⟩
  have nonempty : ∀ w ∈ settled.1, w.Nonempty :=
    settleWindows_forall (fun lower c hv he => ((candidateValid_iff installed lower c).1 hv he).2.1) hbefore (by simp)
  have here := settleWindows_settledAt (installed := installed) [] i hb hc
  unfold SettledAt at here
  rwa [List.length_nil, Nat.zero_add,
    candidateValid_iff_acceptable (fun w hw => nonempty w (List.mem_of_mem_take hw))] at here

end Sys2Proof.Machine
end

section
/-! Windows and address translation (01_windows_and_address_translation.md): the Translator's checks in their order (R8 to
R11) and the path of each row (R14 to R17). -/

namespace Sys2Proof.Machine

variable {v : Settings} {installed : Nat} {kind : OpKind} {a : Address}

/-! ### The checks that stand before the window (R8, R20) -/

/-- An address phase whose column the operation may have (R8). -/
def Address.ColumnFits (a : Address) (kind : OpKind) : Prop := a.column ≤ 4223 ∧ (kind = .erase → a.column = 0)

theorem Address.columnFits_iff : a.ColumnFits kind ↔ ¬ (4223 < a.column ∨ kind = .erase ∧ a.column ≠ 0) := by
  unfold Address.ColumnFits
  grind

theorem screen_of_unqualified (h : a.reserved = true ∨ a.through = true ∧ kind = .read) :
    screen v installed kind a = .refused .qualifier := by
  simp [screen, h]

theorem screen_of_qualified (h : ¬ (a.reserved = true ∨ a.through = true ∧ kind = .read)) :
    screen v installed kind a = translate v installed kind a := by
  simp [screen, h]

theorem translate_of_no_access (ha : a.absolute = true) (hv : v.serviceAccess = false) :
    translate v installed kind a = .refused .service := by
  simp [translate, ha, hv]

theorem translate_of_column_unfit (ha : a.absolute = false ∨ v.serviceAccess = true) (hc : ¬ a.ColumnFits kind) :
    translate v installed kind a = .refused .address := by
  have access : (a.absolute && !v.serviceAccess) = false := by rcases ha with h | h <;> simp [h]
  rw [Address.columnFits_iff, not_not] at hc
  by_cases hlast : 4223 < a.column
  · simp [translate, access, hlast]
  · simp [translate, access, hlast, hc.resolve_left hlast]

theorem translate_windowed (ha : a.absolute = false) (hc : a.ColumnFits kind) :
    translate v installed kind a = translateWindowed v kind a := by
  obtain ⟨hlast, herase⟩ := hc
  simpa [translate, ha, Nat.not_lt.2 hlast] using fun h h0 => absurd (herase h) h0

theorem translate_absolute (ha : a.absolute = true) (hv : v.serviceAccess = true) (hc : a.ColumnFits kind) :
    translate v installed kind a = translateAbsolute v installed kind a := by
  obtain ⟨hlast, herase⟩ := hc
  simpa [translate, ha, hv, Nat.not_lt.2 hlast] using fun h h0 => absurd (herase h) h0

/-! ### Windows 0 to 13 (R9, R10, R14, R15) -/

@[simp] theorem OpKind.isWrite_iff : kind.isWrite = true ↔ kind ≠ .read := by cases kind <;> simp [OpKind.isWrite]

theorem translateWindowed_survey {w : Window} (hn : a.row.toNat / 1048576 < 14)
    (hw : v.windows[a.row.toNat / 1048576]? = some w) :
    translateWindowed v kind a =
      translateSurvey kind a (a.row.toNat / 1048576) (a.row.toNat % 1048576) w := by
  have h14 : a.row.toNat / 1048576 ≠ 14 := by omega
  have h15 : a.row.toNat / 1048576 ≠ 15 := by omega
  simp [translateWindowed, windowOf, offsetOf, h14, h15, hw]

theorem translateSurvey_outside {number offset : Nat} {w : Window} (h : w.enabled = false ∨ w.extent ≤ offset / 128) :
    translateSurvey kind a number offset w = .refused .address := by
  unfold translateSurvey
  rcases h with h | h <;> simp [h]

theorem translateSurvey_closed {number offset : Nat} {w : Window} (he : w.enabled = true) (hx : offset / 128 < w.extent)
    (hk : kind ≠ .read) (hw : w.closed = true) : translateSurvey kind a number offset w = .refused .closed := by
  simp [translateSurvey, he, Nat.not_le.2 hx, hk, hw]

theorem translateSurvey_open {number offset : Nat} {w : Window} (he : w.enabled = true) (hx : offset / 128 < w.extent)
    (hw : kind = .read ∨ w.closed = false) :
    translateSurvey kind a number offset w = .passed
      { kind := kind, path := surveyPath kind (physicalRow w.base offset), column := a.column
        origin := .window number, holdEligible := w.holdEligible, profileFlag := false, through := a.through } := by
  have : (kind.isWrite && w.closed) = false := by rcases hw with h | h <;> simp [h, OpKind.isWrite]
  simp [translateSurvey, he, Nat.not_le.2 hx, this]

/-! ### The fixed windows (R9, R14, R16, R17) -/

theorem translateWindowed_report (hn : a.row.toNat / 1048576 = 14) :
    translateWindowed v kind a = translateReport kind a (a.row.toNat % 1048576) := by
  simp [translateWindowed, windowOf, offsetOf, hn]

theorem translateWindowed_profile (hn : a.row.toNat / 1048576 = 15) :
    translateWindowed v kind a = translateProfile kind a (a.row.toNat % 1048576) := by
  simp [translateWindowed, windowOf, offsetOf, hn]

theorem translateReport_refused {offset : Nat} (h : 128 ≤ offset ∨ kind = .erase ∨ kind = .program ∧ offset ≠ 1) :
    translateReport kind a offset = .refused .address := by
  unfold translateReport
  rcases h with h | rfl | ⟨rfl, h⟩
  · simp [h]
  · simp
  · simp [h]

theorem translateReport_passed {offset : Nat} (ho : offset < 128) (h : kind = .read ∨ kind = .program ∧ offset = 1) :
    translateReport kind a offset = .passed
      { kind := kind, path := .report offset, column := a.column, origin := .window 14, holdEligible := false
        profileFlag := false, through := a.through } := by
  unfold translateReport
  rcases h with rfl | ⟨rfl, rfl⟩ <;> simp [Nat.not_le.2 ho]

theorem translateProfile_refused {offset : Nat} (h : 128 ≤ offset) :
    translateProfile kind a offset = .refused .address := by
  simp [translateProfile, h]

theorem translateProfile_passed {offset : Nat} (h : offset < 128) :
    translateProfile kind a offset = .passed
      { kind := kind
        path := match kind with | .read => .snoop offset | .program => .profile offset | .erase => .profile 0
        column := a.column, origin := .window 15, holdEligible := false, profileFlag := decide (kind ≠ .read)
        through := a.through } := by
  cases kind <;> simp [translateProfile, Nat.not_le.2 h, OpKind.isWrite]

/-! ### ABSOLUTE rows (R11, R15) -/

/-- An enabled entry whose range includes the block (R3). -/
theorem Window.covers_iff {w : Window} {block : Nat} :
    w.covers block = true ↔ w.enabled = true ∧ w.base ≤ block ∧ block < w.base + w.extent := by
  simp [Window.covers, and_assoc]

/-- A row that ABSOLUTE may not name: outside the installed dies, or in the profile or the note block (R11). -/
def AbsoluteBarred (installed row : Nat) : Prop :=
  4194304 ≤ row ∨ installed * 8192 ≤ row / 128 ∨ row / 128 = 0 ∨ row / 128 = 1

theorem absoluteBarred_iff {row : Nat} :
    (4194304 ≤ row || installed * 8192 ≤ row / 128 || row / 128 == 0 || row / 128 == 1 : Bool) = true ↔
      AbsoluteBarred installed row := by
  simp [AbsoluteBarred, or_assoc]

theorem translateAbsolute_barred (h : AbsoluteBarred installed a.row.toNat) :
    translateAbsolute v installed kind a = .refused .address := by
  unfold translateAbsolute
  exact if_pos (absoluteBarred_iff.2 h)

theorem translateAbsolute_closed (h : ¬ AbsoluteBarred installed a.row.toNat) (hk : kind ≠ .read)
    (hw : ∃ w ∈ v.windows, w.covers (a.row.toNat / 128) = true ∧ w.closed = true) :
    translateAbsolute v installed kind a = .refused .closed := by
  unfold translateAbsolute
  dsimp only
  rw [if_neg (fun hb => h (absoluteBarred_iff.1 hb)), if_pos (by simpa [hk] using hw)]

theorem translateAbsolute_open (h : ¬ AbsoluteBarred installed a.row.toNat)
    (hw : kind = .read ∨ ∀ w ∈ v.windows, w.covers (a.row.toNat / 128) = true → w.closed = false) :
    translateAbsolute v installed kind a = .passed
      { kind := kind, path := surveyPath kind a.row.toNat, column := a.column, origin := .absolute
        holdEligible := (v.windows.filter (fun w => w.covers (a.row.toNat / 128))).any (fun w => w.holdEligible)
        profileFlag := false, through := a.through } := by
  unfold translateAbsolute
  dsimp only
  rw [if_neg (fun hb => h (absoluteBarred_iff.1 hb)), if_neg]
  rcases hw with hw | hw
  · simp [hw]
  · simp only [Bool.and_eq_true, List.any_eq_true, List.mem_filter, not_and, not_exists]
    rintro - w ⟨hmem, hcov⟩
    simp [hw w hmem hcov]

/-! ### The obligation -/

/-- Settles O44: each clause is the equation of the check it names, the checks before it passed. -/
theorem rowsTranslate : Obligations.RowsTranslate := by
  refine ⟨fun v installed kind a => ⟨screen_of_unqualified, fun h => ?qualified⟩, fun v installed kind a ha hc =>
    translate_of_column_unfit ha (fun h => Address.columnFits_iff.1 h hc), ⟨?survey, ?fixed⟩, ?absolute⟩
  case qualified =>
    rw [screen_of_qualified h]
    exact ⟨rfl, translate_ne_qualifier v installed kind a⟩
  case survey =>
    intro v installed kind a w ha hw hn block row bad
    have windowed (hc : a.ColumnFits kind) : translate v installed kind a =
        translateSurvey kind a (a.row.toNat / 1048576) (a.row.toNat % 1048576) w := by
      rw [translate_windowed ha hc, translateWindowed_survey hn hw]
    have fits (hb : ¬ bad) : a.ColumnFits kind ∧ w.enabled = true ∧ block < w.extent := by
      simp only [bad, not_or, Bool.not_eq_false, Nat.not_le] at hb
      obtain ⟨hlast, herase, he, hx⟩ := hb
      exact ⟨Address.columnFits_iff.2 (not_or.2 ⟨hlast, herase⟩), he, hx⟩
    refine ⟨fun hb => ?_, fun hb hk hclosed => ?_, fun hb hopen => ?_⟩
    · by_cases hc : a.ColumnFits kind
      · rw [windowed hc]
        have hcol := Address.columnFits_iff.1 hc
        exact translateSurvey_outside ((or_assoc.2 hb).resolve_left hcol)
      · exact translate_of_column_unfit (.inl ha) hc
    · obtain ⟨hc, he, hx⟩ := fits hb
      rw [windowed hc, translateSurvey_closed he hx hk hclosed]
    · obtain ⟨hc, he, hx⟩ := fits hb
      rw [windowed hc, translateSurvey_open he hx hopen]
      have hrow : physicalRow w.base (a.row.toNat % 1048576) = row := by
        simp only [physicalRow, row, block]
        omega
      have hfirst : firstRowOfBlock row = (w.base + block) * 128 := by
        simp only [firstRowOfBlock, row]
        omega
      cases kind <;> simp [surveyPath, hrow, hfirst]
  case fixed =>
    intro v installed kind a ha hcol hcer offset
    have hc : a.ColumnFits kind := ⟨hcol, hcer⟩
    rw [translate_windowed ha hc]
    exact ⟨fun hn h => (translateWindowed_report hn).trans (translateReport_refused h),
      fun hn ho h => (translateWindowed_report hn).trans (translateReport_passed ho h),
      fun hn h => (translateWindowed_profile hn).trans (translateProfile_refused h),
      fun hn h => (translateWindowed_profile hn).trans (translateProfile_passed h)⟩
  case absolute =>
    intro v installed kind a ha
    refine ⟨translate_of_no_access ha, fun hv hcol hcer => ?_⟩
    intro row around bad
    have hc : a.ColumnFits kind := ⟨hcol, hcer⟩
    rw [translate_absolute ha hv hc]
    refine ⟨translateAbsolute_barred, fun hb hk hw => ?_, fun hb hw => ?_⟩
    · obtain ⟨w, ⟨hmem, hin⟩, hclosed⟩ := hw
      exact translateAbsolute_closed hb hk ⟨w, hmem, Window.covers_iff.2 hin, hclosed⟩
    · refine ⟨_, translateAbsolute_open hb (hw.imp_right fun hw w hmem hcov =>
        hw w ⟨hmem, Window.covers_iff.1 hcov⟩), rfl, rfl, rfl, ?_, rfl, rfl, ?_⟩
      · cases kind <;> rfl
      · simp [around, row, Window.covers_iff, and_assoc]

end Sys2Proof.Machine
end

section
/-! Where front writes go (R13): the law that windows and front writes keep clear of the profile and note blocks, one
lemma per shared operation. -/

namespace Sys2Proof.Machine

/-! ### What screening lets through (R9 to R17) -/

/-- A row that lies on an installed die outside physical blocks 0 and 1 may be written without the profile flag, at its own
page or from its block's first row. -/
theorem writeLaw_surveyPath {kind : OpKind} {row column : Nat} {origin : Origin} {holdEligible through : Bool}
    (hk : kind ≠ .read) (hr : row < 4194304) (h2 : 2 ≤ row / 128) :
    Translated.WriteLaw { kind := kind, path := surveyPath kind row, column := column, origin := origin
                          holdEligible := holdEligible, profileFlag := false, through := through } := by
  cases kind with
  | read => exact absurd rfl hk
  | program =>
    simp only [Translated.WriteLaw, surveyPath, WriteRow, Bool.false_eq_true, false_iff]
    omega
  | erase =>
    simp only [Translated.WriteLaw, surveyPath, firstRowOfBlock, WriteRow, Bool.false_eq_true, false_iff]
    omega

section Screening

variable {v : Settings} {installed : Nat} {kind : OpKind} {a : Address} {op : Translated}

theorem writeLaw_of_translateSurvey {number offset : Nat} {w : Window} (hi : installed ≤ 4) (hw : w.Placed installed)
    (hk : kind ≠ .read) (h : translateSurvey kind a number offset w = .passed op) : op.WriteLaw := by
  by_cases hout : w.enabled = false ∨ w.extent ≤ offset / 128
  · rw [translateSurvey_outside hout] at h
    cases h
  obtain ⟨he, hx⟩ : w.enabled = true ∧ offset / 128 < w.extent := by simpa using hout
  obtain ⟨hbase, -, -, hend⟩ := hw he
  by_cases hclosed : w.closed = true
  · rw [translateSurvey_closed he hx hk hclosed] at h
    cases h
  · rw [translateSurvey_open he hx (.inr (by simpa using hclosed))] at h
    cases h
    refine writeLaw_surveyPath hk ?_ ?_
    · unfold physicalRow
      omega
    · unfold physicalRow
      omega

theorem writeLaw_of_translateReport {offset : Nat} (h : translateReport kind a offset = .passed op) : op.WriteLaw := by
  by_cases hr : 128 ≤ offset ∨ kind = .erase ∨ kind = .program ∧ offset ≠ 1
  · rw [translateReport_refused hr] at h
    cases h
  · rw [translateReport_passed (by omega) (by cases kind <;> simp_all)] at h
    cases h
    trivial

theorem writeLaw_of_translateProfile {offset : Nat} (hk : kind ≠ .read)
    (h : translateProfile kind a offset = .passed op) : op.WriteLaw := by
  by_cases hr : 128 ≤ offset
  · rw [translateProfile_refused hr] at h
    cases h
  · rw [translateProfile_passed (by omega)] at h
    cases h
    cases kind with
    | read => exact absurd rfl hk
    | program => exact ⟨by omega, by omega, by simp; omega⟩
    | erase => exact ⟨by omega, by omega, by simp⟩

theorem writeLaw_of_translateWindowed (hi : installed ≤ 4) (hw : ∀ w ∈ v.windows, w.Placed installed)
    (hk : kind ≠ .read) (h : translateWindowed v kind a = .passed op) : op.WriteLaw := by
  unfold translateWindowed at h
  dsimp only at h
  split at h
  · exact writeLaw_of_translateReport h
  split at h
  · exact writeLaw_of_translateProfile hk h
  split at h
  · cases h
  · exact writeLaw_of_translateSurvey hi (hw _ (List.mem_of_getElem? ‹_›)) hk h

theorem writeLaw_of_translateAbsolute (hk : kind ≠ .read) (h : translateAbsolute v installed kind a = .passed op) :
    op.WriteLaw := by
  by_cases hb : AbsoluteBarred installed a.row.toNat
  · rw [translateAbsolute_barred hb] at h
    cases h
  by_cases hc : ∃ w ∈ v.windows, w.covers (a.row.toNat / 128) = true ∧ w.closed = true
  · rw [translateAbsolute_closed hb hk hc] at h
    cases h
  · rw [translateAbsolute_open hb (.inr fun w hmem hcov => by simpa using fun h => hc ⟨w, hmem, hcov, h⟩)] at h
    cases h
    unfold AbsoluteBarred at hb
    exact writeLaw_surveyPath hk (by omega) (by omega)

/-- R13 at the address phase: a PROGRAM or ERASE that passes screening names a row it may write. -/
theorem writeLaw_of_screen (hi : installed ≤ 4) (hw : ∀ w ∈ v.windows, w.Placed installed) (hk : kind ≠ .read)
    (h : screen v installed kind a = .passed op) : op.WriteLaw := by
  have ht : translate v installed kind a = .passed op := by
    unfold screen at h
    split at h
    · cases h
    · exact h
  unfold translate at ht
  split at ht
  · cases ht
  split at ht
  · cases ht
  split at ht
  · cases ht
  split at ht
  · exact writeLaw_of_translateAbsolute hk ht
  · exact writeLaw_of_translateWindowed hi hw hk ht

end Screening

/-! ### The window table and profiles (R5, R173, R175) -/

theorem Window.placed_of_candidateValid {installed : Nat} {lower : List Window} {c : Window}
    (h : candidateValid installed lower c = true) : c.Placed installed := by
  intro he
  obtain ⟨hbase, hx, hlast, hend, -⟩ := (candidateValid_iff installed lower c).1 h he
  exact ⟨hbase, hx, hlast, hend⟩

theorem defaultWindows_placed {installed : Nat} (h : 1 ≤ installed) : ∀ w ∈ defaultWindows, w.Placed installed := by
  intro w hw
  rw [defaultWindows, List.mem_cons, List.mem_replicate] at hw
  rcases hw with rfl | ⟨-, rfl⟩
  · intro _
    simp only [defaultWindowZero]
    omega
  · intro he
    cases he

theorem testProfile_installed {page : Page} {p : ProfileImage} {clamped : Bool}
    (h : testProfile page = .accepted p clamped) : 1 ≤ p.installed ∧ p.installed ≤ 4 := by
  unfold testProfile at h
  split at h
  · dsimp only at h
    split at h
    · cases h
      exact clampNat_range _ (by decide)
    · cases h
  · cases h

theorem defaultProfile_installed : 1 ≤ defaultProfile.installed ∧ defaultProfile.installed ≤ 4 := by decide

namespace State.AddressLaw

variable {s : State} (h : s.AddressLaw)
include h

/-! ### Updates of one block -/

/-- The law speaks of the installed count and the settings, the front state, the entries and the dies alone. -/
theorem of_frame {t : State}
    (ht : t.control.installed = s.control.installed ∧ t.control.settings = s.control.settings ∧
      t.front.state = s.front.state ∧ t.queue.entries = s.queue.entries ∧ t.media.dies = s.media.dies) :
    t.AddressLaw := by
  obtain ⟨hi, hv, hf, hq, hm⟩ := ht
  refine ⟨hi ▸ h.installed, ?windows, hf ▸ h.receiving, hq ▸ h.entries, ?dies⟩
  case windows =>
    unfold State.WindowLaw
    rw [hi, hv]
    exact h.windows
  case dies =>
    intro d
    unfold State.die
    rw [hm]
    exact h.dies d

theorem withFront {f : FrontPort} (hf : ∀ op next, f.state = .receiving op next → op.WriteLaw) :
    (s.withFront f).AddressLaw :=
  ⟨h.installed, h.windows, hf, h.entries, h.dies⟩

theorem withFrontState {f : FrontState} (hf : ∀ op next, f = .receiving op next → op.WriteLaw) :
    (s.withFrontState f).AddressLaw :=
  h.withFront hf

theorem withQueue {q : HoldQueue} (hq : ∀ e ∈ q.entries, WriteRow e.row e.profileFlag) : (s.withQueue q).AddressLaw :=
  ⟨h.installed, h.windows, h.receiving, hq, h.dies⟩

theorem withMedia {m : Scheduler} (hm : ∀ d, (m.dies.get d).state.WriteLaw) : (s.withMedia m).AddressLaw :=
  ⟨h.installed, h.windows, h.receiving, h.entries, hm⟩

theorem withControl {c : Controller} (hi : 1 ≤ c.installed ∧ c.installed ≤ 4) (hw : (s.withControl c).WindowLaw) :
    (s.withControl c).AddressLaw :=
  ⟨hi, hw, h.receiving, h.entries, h.dies⟩

theorem withDie {d : Die} {x : DieState} (hx : x.WriteLaw) : (s.withDie d x).AddressLaw where
  installed := h.installed
  windows := h.windows
  receiving := h.receiving
  entries := h.entries
  dies e := by
    rw [State.withDie_die]
    split
    · exact hx
    · exact h.dies e

theorem withPatience (d : Die) (n : Nat) : (s.withPatience d n).AddressLaw where
  installed := h.installed
  windows := h.windows
  receiving := h.receiving
  entries := h.entries
  dies e := by
    rw [State.withPatience_die]
    exact h.dies e

/-- The front takes a state in which no write waits for its data. -/
theorem withFrontNotReceiving {f : FrontState} (hf : f.isReceiving = false) :
    (s.withFrontState f).AddressLaw :=
  h.withFrontState fun op next hr => by
    rw [hr] at hf
    cases hf

/-- The front port changes and its state does not. -/
theorem withFrontOf {f : FrontPort} (hf : f.state = s.front.state) : (s.withFront f).AddressLaw :=
  h.of_frame (by simpa using hf)

theorem withOtherControl {c : Controller}
    (hc : c.installed = s.control.installed ∧ c.settings = s.control.settings) : (s.withControl c).AddressLaw :=
  h.of_frame (by simpa using hc)

theorem withSequence (q : Sequence) : (s.withSequence q).AddressLaw := h.withOtherControl (by simp)

/-- The waiting requests and the lines change and the dies do not. -/
theorem withOtherMedia {m : Scheduler} (hm : m.dies = s.media.dies) : (s.withMedia m).AddressLaw :=
  h.of_frame (by simpa using hm)

theorem withPins (p : LineLevels) : (s.withPins p).AddressLaw := h.of_frame (by simp)

theorem withDrop (m : DropMonitor) : (s.withDrop m).AddressLaw := h.of_frame (by simp)

theorem withGauge (g : Gauge) : (s.withGauge g).AddressLaw := h.of_frame (by simp)

theorem withReport (r : ReportMemory) : (s.withReport r).AddressLaw := h.of_frame (by simp)

theorem record (p : Payload) : (s.record p).AddressLaw := h.of_frame (by simp)

/-! ### Applies (R174, R175, R181) -/

theorem putLive (v : Settings) : (s.putLive v).1.AddressLaw := by
  obtain ⟨hlen, hplaced⟩ := h.windows
  refine h.withControl h.installed ⟨?_, ?_⟩
  · simpa [settleWindows_length] using hlen
  · exact settleWindows_forall (fun _ _ => Window.placed_of_candidateValid) hplaced (by simp)

theorem laterApply (p : ProfileImage) (page : Option Nat) : (s.laterApply p page).1.AddressLaw :=
  (h.putLive p.live).of_frame ⟨rfl, rfl, rfl, rfl, rfl⟩

theorem wholeApply {p : ProfileImage} (hp : 1 ≤ p.installed ∧ p.installed ≤ 4) (page : Option Nat) (g : Gauge) :
    (s.wholeApply p page g).1.AddressLaw := by
  have fields := h.withControl (c := { s.control with
      installed := p.installed, rres := p.rres, startUpPending := false, profilePage := page
      settings := { s.control.settings with windows := defaultWindows } }) hp ⟨rfl, defaultWindows_placed hp.1⟩
  exact (fields.putLive p.live).of_frame ⟨rfl, rfl, rfl, rfl, rfl⟩

theorem startUpApply {p : ProfileImage} (hp : 1 ≤ p.installed ∧ p.installed ≤ 4) (page : Option Nat) :
    (s.startUpApply p page).1.AddressLaw :=
  h.wholeApply hp page _

theorem recoveryApply : s.recoveryApply.AddressLaw := h.wholeApply defaultProfile_installed none _

theorem serviceApply (image : Page) (page : Nat) : (s.serviceApply image page).AddressLaw := by
  unfold State.serviceApply
  split
  · exact h.of_frame (by simp)
  next profile clamped _ => exact (h.laterApply profile (some page)).of_frame (by simp)

theorem applyAtStartUp (r : ScanResult) : (s.applyAtStartUp r).AddressLaw := by
  have defaults := h.startUpApply defaultProfile_installed none
  unfold State.applyAtStartUp
  split
  next page image failed =>
    split
    · exact defaults.of_frame (by simp)
    next profile clamped hp => exact (h.startUpApply (testProfile_installed hp) (some page)).of_frame (by simp)
  · exact defaults.of_frame (by simp)
  · exact defaults.of_frame (by simp)

theorem applyAtLineReset (r : ScanResult) : (s.applyAtLineReset r).AddressLaw := by
  unfold State.applyAtLineReset
  split
  next page image failed =>
    split
    · exact h.of_frame (by simp)
    next profile clamped _ => exact (h.laterApply profile (some page)).of_frame (by simp)
  · exact (h.laterApply defaultProfile none).of_frame (by simp)
  · exact h.of_frame (by simp)

end State.AddressLaw

end Sys2Proof.Machine
end

section
/-! Where front writes go (R13): the Service Controller's sequences and the Die Scheduler's consequences keep the law. -/

namespace Sys2Proof.Machine

/-! ### Dies whose requests take another standing (R132, R133, R148), or whose front read is abandoned (R78) -/

/-- An operation that no commit has asked for carries no front write. -/
theorem DieState.writeLaw_of_not_commit {op : MediaOp} (h : op.requester ≠ .commit) : (DieState.busy op).WriteLaw :=
  fun hc => absurd hc h

theorem DieRecord.restand_writeLaw {r : DieRecord} (standing : Standing) (h : r.state.WriteLaw) :
    (r.restand standing).state.WriteLaw := by
  unfold DieRecord.restand
  split
  · exact h
  · exact h
  · split
    · exact h
    · exact h
    · exact DieState.writeLaw_of_not_commit nofun

theorem DieRecord.abandon_writeLaw {r : DieRecord} (h : r.state.WriteLaw) : r.abandon.state.WriteLaw := by
  unfold DieRecord.abandon
  split
  · exact h
  · exact h
  · split
    · exact DieState.writeLaw_of_not_commit nofun
    · exact h
    · exact h

theorem DieRecord.advance_writeLaw {r : DieRecord} (h : r.state.WriteLaw) : r.advance.state.WriteLaw := by
  unfold DieRecord.advance
  split
  · exact h
  · exact h
  next op hop =>
    rw [hop] at h
    exact h

theorem mem_removeOldest {d : Die} {l : List Entry} {e : Entry} (h : e ∈ removeOldest d l) : e ∈ l := by
  induction l with
  | nil => exact h
  | cons a l ih =>
    unfold removeOldest at h
    split at h
    · exact List.mem_cons_of_mem a h
    · rcases List.mem_cons.1 h with rfl | h
      · exact List.mem_cons_self
      · exact List.mem_cons_of_mem a (ih h)

/-- Each entry after an update of the oldest is an entry before, or the update of one. -/
theorem mem_updateOldest {d : Die} {f : Entry → Entry} {l : List Entry} {e : Entry} (h : e ∈ updateOldest d f l) :
    e ∈ l ∨ ∃ x ∈ l, e = f x := by
  induction l with
  | nil => exact .inl h
  | cons a l ih =>
    unfold updateOldest at h
    split at h
    · rcases List.mem_cons.1 h with rfl | h
      · exact .inr ⟨a, List.mem_cons_self, rfl⟩
      · exact .inl (List.mem_cons_of_mem a h)
    · rcases List.mem_cons.1 h with rfl | h
      · exact .inl List.mem_cons_self
      · rcases ih h with h | ⟨x, hx, rfl⟩
        · exact .inl (List.mem_cons_of_mem a h)
        · exact .inr ⟨x, List.mem_cons_of_mem a hx, rfl⟩

theorem FrontPort.cleared_not_receiving {f : FrontPort} {op : Translated} {next : Nat}
    (h : f.cleared.state = .receiving op next) : op.WriteLaw := by
  cases h

namespace State.AddressLaw

variable {s : State} (h : s.AddressLaw)
include h

theorem mapDies {f : DieRecord → DieRecord} (hf : ∀ r, r.state.WriteLaw → (f r).state.WriteLaw) (m : Scheduler)
    (hm : m.dies = s.media.dies.map f) : (s.withMedia m).AddressLaw :=
  h.withMedia fun d => by
    rw [hm, PerDie.get_map]
    exact hf _ (h.dies d)

/-! ### The OPENED note and the scans (R145, R170 to R177, R183) -/

theorem request (op : ServiceOp) : (s.request op).AddressLaw := h.withOtherMedia (by rfl)

theorem openNote (o : Opening) : (s.openNote o).AddressLaw := by
  unfold State.openNote
  split
  · exact (h.withSequence _).request _
  · exact (h.withSequence _).request _

theorem finishOpening (o : Opening) : (s.finishOpening o).AddressLaw := by
  cases o with
  | startUp info => exact h.of_frame (by simp [State.finishOpening])
  | dipRecovery =>
    have recorded : s.dipRecord.AddressLaw := h.of_frame (by simp)
    exact (recorded.withFront fun _ _ => FrontPort.cleared_not_receiving).of_frame ⟨rfl, rfl, rfl, rfl, rfl⟩

theorem openOrFinish (o : Opening) : (s.openOrFinish o).AddressLaw := by
  unfold State.openOrFinish
  split
  · exact h.openNote o
  · exact h.finishOpening o

theorem loadRows (rows : List FailedRow) : (s.loadRows rows).AddressLaw :=
  h.of_frame (by simp [State.loadRows_entries])

theorem loadCounters (dropBase sequenceBase : Tick) : (s.loadCounters dropBase sequenceBase).AddressLaw :=
  h.of_frame (by simp)

theorem endGaugeHold : s.endGaugeHold.AddressLaw := h.of_frame (by simp)

theorem cleanStart (page : Nat) (image : Page) : (s.cleanStart page image).AddressLaw := by
  have loaded := h.loadCounters (noteDropCounter image) (noteSequence image)
  unfold State.cleanStart
  exact (((loaded.withGauge _).endGaugeHold.loadRows _).withOtherControl (by simp)).openOrFinish _

theorem uncleanStart (page : Nat) (image : Page) : (s.uncleanStart page image).AddressLaw :=
  (h.loadCounters _ _).endGaugeHold.openOrFinish _

theorem noNoteStart : s.noNoteStart.AddressLaw := (h.loadCounters 0 0).endGaugeHold.openOrFinish _

theorem settleNote (best : Option (Nat × Page)) : (s.settleNote best).AddressLaw := by
  unfold State.settleNote
  split
  · exact h.noNoteStart
  · split
    · exact h.cleanStart _ _
    · exact h.uncleanStart _ _

theorem loseNote : s.loseNote.AddressLaw := h.of_frame (by simp)

theorem beginNoteScan : s.beginNoteScan.AddressLaw := by
  unfold State.beginNoteScan
  split
  · exact (h.withSequence _).request _
  · exact h.loseNote.settleNote none

theorem noteScanned (page : Nat) (best : Option (Nat × Page)) (data : Page) :
    (s.noteScanned page best data).AddressLaw := by
  have placed (n : Nat) : (s.withControl { s.control with nextNotePage := some n }).AddressLaw := h.withOtherControl (by simp)
  unfold State.noteScanned
  split
  · exact (placed page).settleNote best
  · dsimp only
    split
    · exact (placed 128).settleNote _
    · exact (h.withSequence _).request _

theorem probeNext (dies : List Die) : (s.probeNext dies).AddressLaw := by
  cases dies with
  | nil => exact h.beginNoteScan
  | cons d rest => exact (h.withSequence _).request _

theorem enterService : s.enterService.AddressLaw := h.of_frame (by simp)

theorem scanEnded (purpose : ScanFor) (result : ScanResult) : (s.scanEnded purpose result).AddressLaw := by
  cases purpose with
  | startUp => exact (h.applyAtStartUp result).probeNext _
  | lineReset =>
    have recorded : (s.applyAtLineReset result).lineRecord.AddressLaw := (h.applyAtLineReset result).of_frame (by simp)
    exact recorded.enterService

theorem beginScan (purpose : ScanFor) : (s.beginScan purpose).AddressLaw := by
  unfold State.beginScan
  exact iteInduction (motive := State.AddressLaw) (fun _ => (h.withSequence _).request _)
    (fun _ => h.scanEnded purpose .unread)

theorem scanOn (purpose : ScanFor) (page : Nat) (best : Option (Nat × Page)) (failed : Nat) :
    (s.scanOn purpose page best failed).AddressLaw := by
  unfold State.scanOn
  split
  · exact h.scanEnded purpose _
  · exact (h.withSequence _).request _

theorem profileScanned (purpose : ScanFor) (page : Nat) (best : Option (Nat × Page)) (failed : Nat) (data : Page) :
    (s.profileScanned purpose page best failed data).AddressLaw := by
  unfold State.profileScanned
  split
  · exact h.scanEnded purpose _
  · split
    · exact h.scanOn _ _ _ _
    · exact h.scanOn _ _ _ _

theorem lineProbeNext (dies : List Die) : (s.lineProbeNext dies).AddressLaw := by
  cases dies with
  | nil => exact h.withSequence _
  | cons d rest => exact (h.withSequence _).request _

/-! ### Dip recovery, SPENT and the flush (R132 to R149) -/

theorem recoverSettings : s.recoverSettings.AddressLaw := by
  unfold State.recoverSettings
  split
  · exact h.recoveryApply
  · exact h

theorem beginRecovery : s.beginRecovery.AddressLaw := by
  have counted : s.recoverCounters.AddressLaw := h.of_frame (by simp)
  have reported : s.recoverCounters.recoverSettings.recoverDrops.AddressLaw := counted.recoverSettings.of_frame (by simp)
  exact reported.openOrFinish .dipRecovery

theorem enterSpent : s.enterSpent.AddressLaw := by
  have spent : ((s.withSequence .none).withServiceState .spent).AddressLaw := h.of_frame (by simp)
  unfold State.enterSpent
  dsimp only
  split
  · exact spent.beginRecovery
  · exact spent

theorem restand (m : Scheduler) (hm : m.dies = s.media.dies) (standing : Standing) :
    (s.withMedia (m.restand standing)).AddressLaw :=
  h.mapDies (fun _ => DieRecord.restand_writeLaw standing) _ (by rw [← hm]; rfl)

theorem stopStartUp : s.stopStartUp.AddressLaw := by
  have withdrawn := h.restand s.media.withdrawNotes rfl .disregarded
  unfold State.stopStartUp
  exact (withdrawn.withOtherControl (by simp)).endGaugeHold.enterSpent

theorem stopRecovery : s.stopRecovery.AddressLaw :=
  (h.restand s.media.withdrawNotes rfl .noteOnly).withSequence .none

theorem endFlush (outcome : FlushNoteOutcome) : (s.endFlush outcome).AddressLaw :=
  (h.withOtherControl (by simp)).enterSpent

theorem loseEntries : s.loseEntries.AddressLaw := by
  have empty : (s.withQueue { s.queue with entries := [] }).AddressLaw := h.withQueue (by simp)
  exact empty.of_frame (by simp [State.loseEntries_entries])

theorem endDrain : s.endDrain.AddressLaw := by
  unfold State.endDrain
  dsimp only
  split
  · exact (h.loseEntries.withSequence _).request _
  · exact h.loseEntries.endFlush _

/-! ### Results of service operations (R72, R143, R148) -/

theorem noteWritten (op : ServiceOp) (r : MediaResult) : (s.noteWritten op r).AddressLaw := h.of_frame (by simp)

theorem oldNoteWritten (op : ServiceOp) (r : MediaResult) : (s.oldNoteWritten op r).AddressLaw := by
  have noted := h.noteWritten op r
  have withdrawn (o : Opening) :
      (((s.noteWritten op r).withMedia (s.noteWritten op r).media.withdrawNotes).finishOpening o).AddressLaw :=
    (noted.withOtherMedia (by rfl)).finishOpening o
  unfold State.oldNoteWritten
  dsimp only
  split
  case h_1 opening _ | h_2 opening _ =>
    split
    · exact noted
    · exact withdrawn opening
  all_goals exact noted

theorem sequenceResult (op : ServiceOp) (r : MediaResult) : (s.sequenceResult op r).AddressLaw := by
  unfold State.sequenceResult
  split
  next => exact h
  next => exact h
  next => exact h.beginScan .startUp
  next =>
    split
    · exact h.profileScanned _ _ _ _ _
    · exact h.scanOn _ _ _ _
    · exact h.scanEnded _ _
    · exact h.scanEnded _ _
  next => exact h.probeNext _
  next =>
    split
    · exact h.noteScanned _ _ _
    · exact h.loseNote.settleNote _
  next => exact (h.noteWritten op r).openOrFinish _
  next => exact (h.noteWritten op r).finishOpening _
  next => exact h.lineProbeNext _
  next => exact h
  next => exact h
  next => exact (h.noteWritten op r).endFlush _

theorem serviceDone (request : ServiceRequest) (r : MediaResult) : (s.serviceDone request r).AddressLaw := by
  unfold State.serviceDone
  split
  · exact h.sequenceResult _ _
  · exact h.oldNoteWritten _ _
  · exact h

/-! ### Grants (R49, R66, R67) -/

theorem startMedia (d : Die) (kind : MediaKind) (row : Option Nat) (image : Page) {requester : Requester}
    (hr : requester ≠ .commit) : (s.startMedia d kind row image requester).AddressLaw :=
  h.withDie (DieState.writeLaw_of_not_commit hr)

theorem startFront (d : Die) (row : Nat) : (s.startFront d row).AddressLaw := by
  have taken : (s.withMedia { s.media with frontRead := none }).AddressLaw := h.withOtherMedia (by rfl)
  exact taken.startMedia d .read (some row) [] nofun

theorem spendUnit : s.spendUnit.AddressLaw := h.of_frame (by simp)

/-- The row a commit writes is that of an entry of the queue. -/
theorem startCommit {d : Die} {e : Entry} (he : e ∈ s.queue.entries) : (s.startCommit d e).AddressLaw := by
  have marked : (s.withQueue { s.queue with entries := updateOldest d commitEntry s.queue.entries }).AddressLaw := by
    refine h.withQueue fun x hx => ?_
    rcases mem_updateOldest hx with hx | ⟨y, hy, rfl⟩
    · exact h.entries x hx
    · exact h.entries y hy
  exact (marked.spendUnit.withPatience d 0).withDie fun _ => ⟨e.row, e.profileFlag, rfl, h.entries e he⟩

theorem takeRequest (r : ServiceRequest) : (s.takeRequest r).AddressLaw := h.withOtherMedia (by rfl)

theorem startService (d : Die) (r : ServiceRequest) : (s.startService d r).AddressLaw := by
  have started (kind : MediaKind) (row : Option Nat) (image : Page) :
      ((s.takeRequest r).startMedia d kind row image (.service r)).AddressLaw :=
    (h.takeRequest r).startMedia d kind row image nofun
  unfold State.startService
  dsimp only
  split
  · exact started _ _ _
  · exact started _ _ _
  · exact started _ _ _
  · exact started _ _ _
  · exact (started .program (s.serviceRow r.op) s.composeOpenedNote).of_frame (by simp)
  next image _ =>
    split
    · exact (h.takeRequest r).endFlush _
    · exact (started .program (s.serviceRow r.op) image).of_frame (by simp)

/-! ### Results (R27, R50, R51, R72) -/

theorem countFailure : s.countFailure.AddressLaw := h.withOtherMedia (by rfl)

theorem frontReadDone (base : Page) (failed : Bool) : (s.frontReadDone base failed).AddressLaw := by
  unfold State.frontReadDone
  split
  · exact h.withFront nofun
  all_goals exact h

theorem releaseFront (e : Entry) (passed : Bool) : (s.releaseFront e passed).AddressLaw := by
  unfold State.releaseFront
  split
  · exact h
  · exact h.withFront nofun
  · split
    · exact h.withFrontNotReceiving (by rfl)
    · exact h

theorem applyCommitted (e : Entry) : (s.applyCommitted e).AddressLaw := by
  unfold State.applyCommitted
  split
  · exact h.serviceApply _ _
  · exact h

theorem dropDeparted (tag : Option Tick) (way : Departure) : (s.dropDeparted tag way).AddressLaw := h.of_frame (by simp)

theorem afterPass (e : Entry) : (s.afterPass e).AddressLaw := by
  have chosen : (s.withFree (s.free + 1)).AddressLaw := h.of_frame (by simp)
  unfold State.afterPass
  dsimp only
  split
  · split
    · exact (chosen.dropDeparted _ _).applyCommitted e
    · exact (chosen.applyCommitted e).dropDeparted _ _
  · exact (h.dropDeparted _ _).applyCommitted e

theorem countLeaving (passed : Bool) : (s.countLeaving passed).AddressLaw := h.of_frame (by simp)

theorem passCommit (e : Entry) : (s.passCommit e).AddressLaw := by
  have cleared : (s.withQueue { s.queue with failedRows := clearFailed s.queue.failedRows e }).AddressLaw :=
    h.withQueue h.entries
  exact ((cleared.countLeaving true).releaseFront e true).afterPass e

theorem reportUnwritten (e : Entry) (cause : CommitFailCause) (way : Departure) :
    (s.reportUnwritten e cause way).AddressLaw :=
  h.of_frame (by simp [State.reportUnwritten, State.addFailedRow])

theorem failCommit (e : Entry) (cause : FailCause) : (s.failCommit e cause).AddressLaw := by
  have released := (h.countLeaving false).releaseFront e false
  unfold State.failCommit
  dsimp only
  split
  · exact released.dropDeparted _ _
  · exact released.reportUnwritten _ _ _

theorem commitDone (d : Die) (r : MediaResult) : (s.commitDone d r).AddressLaw := by
  have left : (s.withQueue { s.queue with entries := removeOldest d s.queue.entries }).AddressLaw :=
    h.withQueue fun e he => h.entries e (mem_removeOldest he)
  unfold State.commitDone
  split
  · exact h
  · dsimp only
    split
    · exact left.passCommit _
    · exact left.failCommit _ _

theorem handResult (d : Die) (requester : Requester) (r : MediaResult) (data : Page) :
    (s.handResult d requester r data).AddressLaw := by
  unfold State.handResult
  split
  · exact h
  · exact h.frontReadDone _ _
  · exact h.commitDone _ _
  · exact h.serviceDone _ _

/-! ### Consequences (R67, R75, R77) -/

theorem handLines : s.handLines.AddressLaw := h.withOtherMedia (by rfl)

theorem micro {t : State} (ht : s.micro = some t) : t.AddressLaw := by
  refine State.micro_keeps (P := State.AddressLaw) ?free ?service ?front ?commit ?probe ?pass ?fail ?failFront ?failCommit
    ?scan ?drain s t h ht
  case free => exact fun s n hs => hs.of_frame (by simp)
  case service => exact fun s d r hs _ _ _ _ _ => hs.startService d r
  case front =>
    intro s d row contested hs _ _ _ _
    unfold State.perform
    dsimp only
    split
    · exact (hs.withPatience d _).startFront d row
    · exact hs.startFront d row
  case commit =>
    intro s d e hs _ ho _
    obtain ⟨-, holdest, -⟩ := State.offer_some ho
    exact hs.startCommit (HoldQueue.oldest_some holdest).1
  case probe => exact fun s r hs _ _ _ => hs.startService _ r
  case pass => exact fun s r hs _ _ _ => (hs.takeRequest r).serviceDone r _
  case fail => exact fun s r hs _ _ _ => (hs.takeRequest r).countFailure.serviceDone r _
  case failFront =>
    intro s d row hs _ _ _
    have taken : (s.withMedia { s.media with frontRead := none }).AddressLaw := hs.withOtherMedia (by rfl)
    exact taken.countFailure.frontReadDone [] true
  case failCommit => exact fun s d e hs _ _ => hs.countFailure.commitDone d _
  case scan => exact fun s hs _ _ => hs.beginScan .lineReset
  case drain => exact fun s hs _ _ => hs.endDrain

theorem settled : s.settled.AddressLaw :=
  State.settled_keeps (fun _ _ hs ht => hs.micro ht) (fun _ hs => hs.handLines) s h

end State.AddressLaw

end Sys2Proof.Machine
end

section
/-! Where front writes go (R13): every command keeps the law. -/

namespace Sys2Proof.Machine

namespace State.AddressLaw

variable {s : State} (h : s.AddressLaw)
include h

/-! ### The front store bus (R19 to R37) -/

theorem dropReceiving : s.dropReceiving.AddressLaw := by
  have freed : (s.withQueue s.queue.freeReserved).AddressLaw := h.withQueue h.entries
  exact (freed.withReport _).withFrontNotReceiving (by rfl)

theorem endTransaction : s.endTransaction.AddressLaw := by
  unfold State.endTransaction
  split
  · exact h
  · exact h.withFrontNotReceiving (by rfl)
  · exact h.withFrontNotReceiving (by rfl)
  · exact h.dropReceiving
  · exact h
  · exact h

theorem deselect : s.deselect.AddressLaw := h.withFrontOf (by rfl)

theorem refuseByte (cause : RefusalCause) : (s.refuseByte cause).AddressLaw := h.withFrontOf (by rfl)

theorem takeOperation (kind : OpKind) : (s.takeOperation kind).AddressLaw := by
  unfold State.takeOperation
  dsimp only
  split
  · exact h
  split
  · exact h.deselect.refuseByte _
  split
  · exact h.deselect.refuseByte _
  · exact h.deselect.endTransaction.withFrontNotReceiving (by rfl)

theorem abandonRead : s.abandonRead.AddressLaw := h.mapDies (fun _ => DieRecord.abandon_writeLaw) _ rfl

theorem withdraw : s.withdraw.AddressLaw := by
  unfold State.withdraw
  split
  · exact h
  · have left : (s.withQueue
        { s.queue with entries := s.queue.entries.filter (fun x => !x.withdrawable) }).AddressLaw :=
      h.withQueue fun e he => h.entries e (List.mem_of_mem_filter he)
    exact left.dropDeparted _ _

theorem detach : (s.withQueue s.queue.detach).AddressLaw := by
  refine h.withQueue fun e he => ?_
  obtain ⟨x, hx, rfl⟩ := List.mem_map.1 he
  unfold detachEntry
  split
  · exact h.entries x hx
  · exact h.entries x hx

theorem resetAwaiting : s.resetAwaiting.AddressLaw := by
  unfold State.resetAwaiting
  split
  · exact h.withdraw.withFrontNotReceiving (by rfl)
  · exact h.detach

theorem resetOperation : s.resetOperation.AddressLaw := by
  unfold State.resetOperation
  split
  · exact h
  · exact h.endTransaction
  · exact h.abandonRead.withFrontNotReceiving (by rfl)
  · exact h.endTransaction
  · exact h.endTransaction
  · exact h.resetAwaiting

theorem execStatus {t : State} (ht : execStatus s = .next t) : t.AddressLaw := by
  cases ht
  split
  · exact h
  split
  · exact h.withFrontOf (by rfl)
  · exact h.endTransaction.withFrontOf (by rfl)

theorem execReset {t : State} (ht : execReset s = .next t) : t.AddressLaw := by
  cases ht
  split
  · exact h
  split
  · exact h.deselect.refuseByte _
  · exact h.resetOperation.withFrontOf (by rfl)

theorem execUnknownOperationByte {byte : Byte} {t : State} (ht : execUnknownOperationByte byte s = .next t) :
    t.AddressLaw := by
  unfold Machine.execUnknownOperationByte at ht
  split at ht
  · cases ht
    exact h
  · cases ht
    exact h.takeOperation .read
  · cases ht
    exact h.takeOperation .program
  · cases ht
    exact h.takeOperation .erase
  · exact h.execStatus ht
  · exact h.execReset ht

/-! ### The address phase and the data (R8, R20, R27 to R31) -/

theorem refuse (cause : RefusalCause) (op : OpKind) (row : BitVec 24) (absolute : Bool) :
    (s.refuse cause op row absolute).AddressLaw := by
  have counted : (s.withFront (s.front.refuse cause)).AddressLaw := h.withFrontOf (by rfl)
  unfold State.refuse
  dsimp only
  split
  · exact counted
  · exact counted.withReport _

theorem snoop (row column : Nat) : (s.snoop row column).AddressLaw := by
  unfold State.snoop
  split
  · exact h.withFront nofun
  · have requested : (s.withMedia { s.media with frontRead := some row }).AddressLaw := h.withOtherMedia (by rfl)
    exact (requested.withFrontNotReceiving (by rfl)).settled

theorem receive {op : Translated} (hop : op.WriteLaw) : (s.receive op).AddressLaw := by
  have law : ∀ op' next, FrontState.receiving op op.column = .receiving op' next → op'.WriteLaw := by
    rintro _ _ ⟨⟩
    exact hop
  have reserved : (s.withQueue { s.queue with reserved := some [] }).AddressLaw := h.withQueue h.entries
  unfold State.receive
  split
  · exact (h.withReport _).withFrontState law
  all_goals exact reserved.withFrontState law

theorem route {op : Translated} (hop : op.kind ≠ .read → op.WriteLaw) : (s.route op).AddressLaw := by
  have passed : s.clearRefused.AddressLaw := h.withFrontOf (by rfl)
  unfold State.route
  dsimp only
  split
  next =>
    split
    · exact passed.snoop _ _
    · exact passed.withFront nofun
    · exact passed.snoop _ _
    · exact passed.snoop _ _
  next hk => exact passed.receive (hop (by simp [hk]))
  next hk => exact passed.receive (hop (by simp [hk]))

/-- The windows in force are what keeps a write that passes screening clear of the note block. -/
theorem endAddress (kind : OpKind) (a : Address) : (s.endAddress kind a).AddressLaw := by
  unfold State.endAddress
  split
  · exact (h.withFrontNotReceiving (by rfl)).refuse _ _ _ _
  next op hop =>
    refine h.route fun hk => ?_
    rw [(screen_passed hop).1] at hk
    exact writeLaw_of_screen h.installed.2 h.windows.2 hk hop

theorem takeData {op : Translated} {next : Nat} (hs : s.front.state = .receiving op next) (byte : Byte) :
    (s.takeData op next byte).AddressLaw := by
  have moved (n : Nat) : (s.withFrontState (.receiving op n)).AddressLaw :=
    h.withFrontState (by rintro _ _ ⟨⟩; exact h.receiving op next hs)
  unfold State.takeData
  dsimp only
  split
  · exact (moved _).withReport _
  all_goals exact (moved _).withQueue h.entries

theorem dropAccepted (tag : Option Tick) (posted : Bool) : (s.dropAccepted tag posted).AddressLaw := h.of_frame (by simp)

theorem accept {op : Translated} {row : Nat} (hrow : WriteRow row op.profileFlag) : (s.accept op row).AddressLaw := by
  have queued : (s.withQueue
      { s.queue with entries := s.queue.entries ++ [s.formEntry op row], reserved := none }).AddressLaw :=
    h.withQueue (List.forall_mem_append.2 ⟨h.entries, List.forall_mem_singleton.2 hrow⟩)
  have released (posted : Bool) : ∀ op next, (s.front.accepted posted).state = .receiving op next → op.WriteLaw := by
    cases posted
    · exact nofun
    · exact nofun
  unfold State.accept
  exact (queued.withFront (released _)).dropAccepted _ _

theorem offerAnew : s.offerAnew.AddressLaw := by
  unfold State.offerAnew
  split
  · exact h.settled
  · exact h

theorem endConsumption : s.endConsumption.AddressLaw := by
  have ended : ((s.withReport { s.report with consumption := none }).withFrontState .idle).AddressLaw :=
    (h.withReport _).withFrontNotReceiving (by rfl)
  unfold State.endConsumption
  dsimp only
  split
  · exact (ended.withFrontOf (by rfl)).withReport _
  · exact ended.refuse _ _ _ _

theorem execAddressByte {byte : Byte} {t : State} (ht : execAddressByte byte s = .next t) : t.AddressLaw := by
  cases ht
  split
  · exact h
  split
  · exact h.endAddress _ _
  · exact h.withFrontNotReceiving (by rfl)
  all_goals exact h

theorem execDataByte {byte : Byte} {t : State} (ht : execDataByte byte s = .next t) : t.AddressLaw := by
  cases ht
  split
  · exact h
  split
  next op next hs =>
    split
    · exact h.takeData hs byte
    · exact h
  all_goals exact h

theorem execReadStrobe {t : State} (ht : execReadStrobe s = .next t) : t.AddressLaw := by
  have driven (byte : Option Byte) : (s.drive byte).AddressLaw := h.withFrontOf (by rfl)
  cases ht
  split
  · exact driven none
  split
  · exact driven _
  · exact (driven _).withFrontNotReceiving (by rfl)
  all_goals exact driven _

theorem execEnd {t : State} (ht : execEnd s = .next t) : t.AddressLaw := by
  cases ht
  split
  · exact h
  split
  next op next hs =>
    have law := h.receiving op next hs
    unfold Translated.WriteLaw at law
    split
    next hp => exact h.endConsumption
    next hp => simp [hp] at law
    next hp => rw [hp] at law; exact (h.accept law).offerAnew
    next hp => rw [hp] at law; exact (h.accept law).offerAnew
  all_goals exact h

/-! ### The media side (R65, R72 to R77) -/

theorem releaseLines : s.releaseLines.AddressLaw := h.withOtherMedia (by rfl)

/-- An operation that goes on in another phase keeps its row. -/
theorem setPhase {d : Die} {op : MediaOp} (hop : (DieState.busy op).WriteLaw) (phase : Phase) :
    (s.setPhase d op phase).AddressLaw :=
  h.withDie hop

theorem busy {d : Die} {op : MediaOp} (hd : s.die d = .busy op) : (DieState.busy op).WriteLaw := hd ▸ h.dies d

theorem completeMedia (d : Die) (op : MediaOp) (r : MediaResult) (data : Page) :
    (s.completeMedia d op r data).AddressLaw := by
  have freed : (s.withDie d .idle).AddressLaw := h.withDie trivial
  unfold State.completeMedia
  refine AddressLaw.settled (AddressLaw.handResult ?_ _ _ _ _)
  split
  · exact freed
  · exact freed.countFailure

theorem timeOut (d : Die) (op : MediaOp) (start : Tick) (timeoutMs : Nat) :
    (s.timeOut d op start timeoutMs).AddressLaw := by
  have off : (s.withDie d .offline).AddressLaw := h.withDie trivial
  have recorded (cause : OfflineCause) {u : State} (hu : u.AddressLaw) :
      (u.recordOffline d op cause start timeoutMs).AddressLaw := hu.record _
  unfold State.timeOut
  split
  · exact (recorded _ off).handResult _ _ _ _
  all_goals exact recorded _ (off.countFailure.handResult _ _ _ _)

theorem execCommandTransferEnd {d : Die} {t : State} (ht : execCommandTransferEnd d s = .next t) : t.AddressLaw := by
  cases ht
  split
  · exact h
  · exact h
  next op hd =>
    split
    · exact h.releaseLines.setPhase (h.busy hd) _
    · exact h

theorem execMrdySeenHigh {d : Die} {t : State} (ht : execMrdySeenHigh d s = .next t) : t.AddressLaw := by
  cases ht
  split
  · exact h
  · exact h
  next op hd =>
    split
    · split
      · exact (h.setPhase (h.busy hd) _).handLines
      · exact (h.setPhase (h.busy hd) _).handLines
      · exact (h.setPhase (h.busy hd) _).handLines
      · exact h.completeMedia d op _ _
    all_goals exact h

theorem execReadoutEnd {d : Die} {page : Page} {t : State} (ht : execReadoutEnd d page s = .next t) : t.AddressLaw := by
  cases ht
  split
  · exact h
  · exact h
  next op hd =>
    split
    · exact (h.releaseLines.setPhase (h.busy hd) _).handLines
    · exact h

theorem execMediaOperationComplete {d : Die} {status : Byte} {t : State}
    (ht : execMediaOperationComplete d status s = .next t) : t.AddressLaw := by
  cases ht
  split
  · exact h
  · exact h
  · split
    · split
      · exact h.releaseLines.completeMedia _ _ _ _
      · exact h
    all_goals exact h

theorem execDieTimeout {d : Die} {t : State} (ht : execDieTimeout d s = .next t) : t.AddressLaw := by
  cases ht
  split
  · exact h
  · exact h
  · split
    · split
      · exact (h.timeOut _ _ _ _).settled
      · exact h
    all_goals exact h

/-! ### The motion and battery lines -/

theorem takeBatteryEdge (e : HeldEdge) : (s.takeBatteryEdge e).AddressLaw := h.of_frame (by simp)

theorem closeDrop (ceiling : Bool) : (s.closeDrop ceiling).AddressLaw := by
  unfold State.closeDrop
  exact h.of_frame (by simp)

theorem suspendFreeFall (drop : Tick) (ceilingMs : Nat) : (s.suspendFreeFall drop ceilingMs).AddressLaw := by
  unfold State.suspendFreeFall
  split
  · exact (h.withDrop _).record _
  · exact h

theorem execFfallRise {t : State} (ht : execFfallRise s = .next t) : t.AddressLaw := by
  have stamped (m : DropMonitor) : ((s.withPins { s.pins with ffall := true }).withDrop m).AddressLaw :=
    (h.withPins _).withDrop m
  cases ht
  split
  · exact h
  · dsimp only
    split
    all_goals exact (stamped _).withDrop _

theorem execFfallFall {t : State} (ht : execFfallFall s = .next t) : t.AddressLaw := by
  have low := h.withPins { s.pins with ffall := false }
  cases ht
  split
  · dsimp only
    split
    · exact (low.withDrop _).record _
    · split
      · exact low
      · exact low.withDrop _
      · exact low.withDrop _
  · exact h

theorem execFimpRise {t : State} (ht : execFimpRise s = .next t) : t.AddressLaw := by
  have high := h.withPins { s.pins with fimp := true }
  cases ht
  split
  · exact h
  · dsimp only
    split
    · split
      · exact high.withDrop _
      · exact high
    · exact high.withDrop _
    · exact high.withDrop _

theorem execFimpFall {t : State} (ht : execFimpFall s = .next t) : t.AddressLaw := by
  cases ht
  split
  · exact (h.withPins _).withDrop _
  · exact h

theorem execMergeTimerExpiry {t : State} (ht : execMergeTimerExpiry s = .next t) : t.AddressLaw := by
  cases ht
  split
  · exact h.withDrop _
  · exact h

theorem execSettleTimerExpiry {t : State} (ht : execSettleTimerExpiry s = .next t) : t.AddressLaw := by
  cases ht
  split
  · exact (h.closeDrop _).settled
  · exact h

theorem execCeilingTimerExpiry {t : State} (ht : execCeilingTimerExpiry s = .next t) : t.AddressLaw := by
  cases ht
  split
  · exact ((h.closeDrop _).suspendFreeFall _ _).settled
  · exact h

theorem endGate : s.endGate.AddressLaw := by
  unfold State.endGate
  dsimp only
  split
  · exact h.withGauge _
  · exact (h.withGauge _).record _

theorem execGateEnd {t : State} (ht : execGateEnd s = .next t) : t.AddressLaw := by
  cases ht
  split
  · exact h.endGate
  · exact h

theorem execMinuteBoundary {t : State} (ht : execMinuteBoundary s = .next t) : t.AddressLaw := by
  cases ht
  split
  · exact h.withGauge _
  · exact h

theorem execPkpresFall {t : State} (ht : execPkpresFall s = .next t) : t.AddressLaw := by
  cases ht
  split
  · exact (h.withPins _).takeBatteryEdge _
  · exact h

theorem execPkpresRise {t : State} (ht : execPkpresRise s = .next t) : t.AddressLaw := by
  cases ht
  split
  · exact h
  · exact (h.withPins _).takeBatteryEdge _

/-! ### The supply, the line reset and the Timebase -/

theorem execStartUpSettleEnd {t : State} (ht : execStartUpSettleEnd s = .next t) : t.AddressLaw := by
  cases ht
  split
  · split
    · exact ((h.withSequence _).request _).settled
    · exact h.stopStartUp.settled
  · exact h

/-- What FLUSHING and LINE_RESET begin with ends the front's operation (R36, R37). -/
theorem flushFront : s.flushFront.AddressLaw := by
  unfold State.flushFront
  dsimp only
  split
  · exact h.deselect
  · exact (h.withFrontNotReceiving (by rfl)).deselect
  · exact (h.abandonRead.withFrontNotReceiving (by rfl)).deselect
  · exact (h.withFrontNotReceiving (by rfl)).deselect
  · exact h.dropReceiving.deselect
  · exact (h.withFrontNotReceiving (by rfl)).deselect

theorem lineFront : s.lineFront.AddressLaw := by
  unfold State.lineFront
  dsimp only
  split
  · exact h.withFrontOf (by rfl)
  · exact (h.withFrontNotReceiving (by rfl)).withFrontOf (by rfl)
  · exact (h.abandonRead.withFrontNotReceiving (by rfl)).withFrontOf (by rfl)
  · exact (h.withFrontNotReceiving (by rfl)).withFrontOf (by rfl)
  · exact h.dropReceiving.withFrontOf (by rfl)
  · exact (h.withFrontNotReceiving (by rfl)).withFrontOf (by rfl)

theorem enterFlushing : s.enterFlushing.AddressLaw := by
  have begun : s.flushControl.AddressLaw := h.withOtherControl (by simp)
  have detached := begun.flushFront.detach
  unfold State.enterFlushing
  exact ((detached.restand _ rfl .disregarded).withDrop _).settled

theorem execSupgoodFall {t : State} (ht : execSupgoodFall s = .next t) : t.AddressLaw := by
  have low := h.withPins { s.pins with supgood := false }
  cases ht
  split
  · dsimp only
    split
    · exact low.stopStartUp.settled
    · exact low.enterFlushing
    · exact low.enterFlushing
    · exact low
    · exact low.stopRecovery.settled
  · exact h

theorem execSupgoodRise {t : State} (ht : execSupgoodRise s = .next t) : t.AddressLaw := by
  have high := h.withPins { s.pins with supgood := true }
  cases ht
  split
  · exact h
  · dsimp only
    split
    case h_5 => exact high.beginRecovery.settled
    all_goals exact high

theorem execRsvgoodFall {t : State} (ht : execRsvgoodFall s = .next t) : t.AddressLaw := by
  have low := h.withPins { s.pins with rsvgood := false }
  cases ht
  split
  · dsimp only
    split
    case h_4 => exact (low.withOtherControl (by simp)).settled
    all_goals exact low
  · exact h

theorem execRsvgoodRise {t : State} (ht : execRsvgoodRise s = .next t) : t.AddressLaw := by
  cases ht
  split
  · exact h
  · exact h.withPins _

theorem clearPatience : (s.withMedia s.media.clearPatience).AddressLaw :=
  h.mapDies (f := fun r => { r with patience := 0 }) (fun _ hr => hr) s.media.clearPatience rfl

theorem beginLineReset : s.beginLineReset.AddressLaw := by
  have marked : (s.lineControl (s.queue.entries.any Entry.withdrawable)).AddressLaw := h.withOtherControl (by simp)
  have detached := marked.lineFront.withdraw.detach
  unfold State.beginLineReset
  exact (detached.clearPatience.lineProbeNext _).settled

theorem execLrst {t : State} (ht : execLrst s = .next t) : t.AddressLaw := by
  cases ht
  split
  case h_1 => exact h.beginLineReset
  all_goals exact h

theorem execTick {t : State} (ht : execTick s = .next t) : t.AddressLaw := by
  cases ht
  exact (h.mapDies (fun _ => DieRecord.advance_writeLaw)
    { s.media with dies := s.media.dies.map DieRecord.advance } rfl).of_frame ⟨rfl, rfl, rfl, rfl, rfl⟩

end State.AddressLaw

theorem State.AddressLaw.powerOn (levels : LineLevels) (free : Nat) (pending : List Instr) :
    (State.powerOn levels free pending).AddressLaw where
  installed := (by decide : 1 ≤ defaultInstalled ∧ defaultInstalled ≤ 4)
  windows := ⟨rfl, defaultWindows_placed le_rfl⟩
  receiving := nofun
  entries := nofun
  dies d := by fin_cases d <;> exact trivial

/-! ### The obligation -/

/-- Every command keeps the law. -/
theorem State.AddressLaw.exec {c : Instr} {s t : State} (h : s.AddressLaw) (ht : exec c s = .next t) : t.AddressLaw := by
  cases c with
  | powerOn levels => cases ht; exact State.AddressLaw.powerOn levels s.free s.pending
  | startUpSettleEnd => exact h.execStartUpSettleEnd ht
  | read => cases ht; exact h.takeOperation .read
  | program => cases ht; exact h.takeOperation .program
  | erase => cases ht; exact h.takeOperation .erase
  | status => exact h.execStatus ht
  | reset => exact h.execReset ht
  | unknownOperationByte byte => exact h.execUnknownOperationByte ht
  | addressByte byte => exact h.execAddressByte ht
  | dataByte byte => exact h.execDataByte ht
  | readStrobe => exact h.execReadStrobe ht
  | endStrobe => exact h.execEnd ht
  | commandTransferEnd die => exact h.execCommandTransferEnd ht
  | mrdySeenHigh die => exact h.execMrdySeenHigh ht
  | readoutEnd die page => exact h.execReadoutEnd ht
  | mediaOperationComplete die status => exact h.execMediaOperationComplete ht
  | dieTimeout die => exact h.execDieTimeout ht
  | ffallRise => exact h.execFfallRise ht
  | ffallFall => exact h.execFfallFall ht
  | fimpRise => exact h.execFimpRise ht
  | fimpFall => exact h.execFimpFall ht
  | mergeTimerExpiry => exact h.execMergeTimerExpiry ht
  | settleTimerExpiry => exact h.execSettleTimerExpiry ht
  | ceilingTimerExpiry => exact h.execCeilingTimerExpiry ht
  | qpulseRise qdir => cases ht; exact h.withGauge _
  | tfreqRise => cases ht; exact h.withGauge _
  | gateEnd => exact h.execGateEnd ht
  | minuteBoundary => exact h.execMinuteBoundary ht
  | chgdoneRise => cases ht; exact h.takeBatteryEdge .chgdone
  | pkemptyRise => cases ht; exact h.takeBatteryEdge .pkempty
  | pkpresFall => exact h.execPkpresFall ht
  | pkpresRise => exact h.execPkpresRise ht
  | supgoodFall => exact h.execSupgoodFall ht
  | supgoodRise => exact h.execSupgoodRise ht
  | rsvgoodFall => exact h.execRsvgoodFall ht
  | rsvgoodRise => exact h.execRsvgoodRise ht
  | lrst => exact h.execLrst ht
  | tick => exact h.execTick ht

/-- Settles O55: every command keeps R13's law. Two facts carry it: windows that R5 settles stand on installed dies clear
of blocks 0 and 1 (`settleWindows_forall`), so a write that passes screening names a row it may write (`writeLaw_of_screen`);
and entries and commits take their rows from such writes alone. -/
theorem addressLawIsKept : Obligations.AddressLawIsKept :=
  fun _ _ h ht => step_keeps (fun _ _ h => h.of_frame (by simp)) (fun _ _ _ h ht => h.exec ht) ht h

end Sys2Proof.Machine
end

section
/-! What an IDLE die is granted (R66 to R71, R135), and what the Hold Queue offers (R47, R48). -/

namespace Sys2Proof.Machine

/-! ### Service operations and rows (R2, R66) -/

theorem ServiceOp.isProbe_iff {op : ServiceOp} : op.isProbe = true ↔ ∃ d, op = .probe d := by
  cases op <;> simp [ServiceOp.isProbe]

theorem ServiceOp.die_eq (op : ServiceOp) :
    op.die = (match op with
      | .probe d => d | .profileRead _ => 0 | .noteRead _ => 0 | .noteErase => 0 | .openedNote => 0
      | .flushNote _ => 0) := by
  cases op <;> rfl

theorem ServiceOp.media_eq (op : ServiceOp) :
    op.media = (match op with
      | .probe _ => .reset | .profileRead _ => .read | .noteRead _ => .read | .noteErase => .erase
      | .openedNote => .program | .flushNote _ => .program) := by
  cases op <;> rfl

theorem MediaKind.isWrite_iff {kind : MediaKind} : kind.isWrite = true ↔ kind = .program ∨ kind = .erase := by
  cases kind <;> simp [MediaKind.isWrite]

/-! ### Offers (R47, R48) and what may be granted (R70, R71, R135) -/

theorem DropMonitor.hold_eq_false_iff {m : DropMonitor} : m.hold = false ↔ m.state = .calm := by
  simp [DropMonitor.hold]

theorem State.commitsAllowed_iff {s : State} : s.commitsAllowed = true ↔
    s.control.state = .flushing ∨ s.control.state ≠ .spent ∧ s.drop.state = .calm := by
  unfold State.commitsAllowed
  split <;> simp_all [DropMonitor.hold_eq_false_iff]

theorem State.writeGateOpen_iff {s : State} :
    s.writeGateOpen = true ↔ s.drop.state = .calm ∨ s.control.state = .flushing := by
  simp [State.writeGateOpen, DropMonitor.hold_eq_false_iff]

theorem State.offer_iff {s : State} {d : Die} {e : Entry} :
    s.offer d = some e ↔ s.commitsAllowed = true ∧ s.queue.oldest d = some e ∧ e.progress = .waiting := by
  refine ⟨State.offer_some, fun ⟨hc, ho, hw⟩ => ?_⟩
  simp [State.offer, hc, ho, hw]

theorem Progress.ne_waiting_iff {p : Progress} : p ≠ .waiting ↔ p = .committing := by cases p <;> simp

theorem State.budgetAllows_iff {s : State} {e : Entry} : s.budgetAllows e = true ↔
    2 ≤ s.control.budget ∧ (e.disposition = .posted ∨
      ∀ x ∈ s.queue.entries, x.disposition = .posted → x.progress = .committing) := by
  simp [State.budgetAllows, Entry.isPosted, ← Progress.ne_waiting_iff]

theorem State.grantable_iff {s : State} {e : Entry} : s.grantable e = true ↔
    (s.drop.state = .calm ∨ s.control.state = .flushing) ∧
    (s.control.state = .flushing → 2 ≤ s.control.budget ∧ (e.disposition = .posted ∨
      ∀ x ∈ s.queue.entries, x.disposition = .posted → x.progress = .committing)) := by
  rw [State.grantable, Bool.and_eq_true, State.writeGateOpen_iff, Bool.or_eq_true, decide_eq_true_eq,
    State.budgetAllows_iff, ← imp_iff_not_or]

theorem State.frontFor_iff {s : State} {d : Die} {row : Nat} :
    s.frontFor d = some row ↔ s.media.frontRead = some row ∧ rowOnDie d row = true := by
  refine ⟨State.frontFor_some, fun ⟨hr, hd⟩ => ?_⟩
  simp [State.frontFor, hr, hd]

/-- A program or erase waits for the gate, any other service operation does not (R70). -/
theorem State.serviceUngated_iff {s : State} {r : ServiceRequest} : s.serviceUngated r = true ↔
    r.op.media.isWrite = false ∨ s.drop.state = .calm ∨ s.control.state = .flushing := by
  simp [State.serviceUngated, State.writeGateOpen_iff]

/-! ### The order of R68 -/

/-- A service operation that waits for this die and may be granted now (R66, R70). -/
def State.ServiceReady (s : State) (d : Die) (r : ServiceRequest) : Prop :=
  r ∈ s.media.services ∧ r.op.die = d ∧ r.op.isProbe = false ∧ s.serviceUngated r = true

/-- A commit that waits for this die and may be granted now (R47, R70, R71). -/
def State.CommitReady (s : State) (d : Die) (e : Entry) : Prop := s.offer d = some e ∧ s.grantable e = true

theorem State.commitReady_iff {s : State} {d : Die} {e : Entry} :
    (s.offer d).filter s.grantable = some e ↔ s.CommitReady d e :=
  Option.filter_eq_some_iff

theorem State.no_commitReady_iff {s : State} {d : Die} :
    (s.offer d).filter s.grantable = none ↔ ∀ e, ¬ s.CommitReady d e := by
  simp only [Option.eq_none_iff_forall_ne_some, ne_eq, State.commitReady_iff]

/-- R68, branch by branch: a service operation that is ready goes first; with a front read and a commit both waiting the
patience counter decides; then whichever waits. -/
theorem State.grantFor_branches (s : State) (d : Die) :
    (∃ r, s.ServiceReady d r ∧ s.grantFor d = some (.service r)) ∨
    (∀ r, ¬ s.ServiceReady d r) ∧
      ((∃ row e, s.frontFor d = some row ∧ s.CommitReady d e ∧ s.grantFor d =
          if (s.media.dies.get d).patience < s.control.settings.patience then some (.front row true)
          else some (.commit e)) ∨
       (∃ row, s.frontFor d = some row ∧ (∀ e, ¬ s.CommitReady d e) ∧ s.grantFor d = some (.front row false)) ∨
       (∃ e, s.frontFor d = none ∧ s.CommitReady d e ∧ s.grantFor d = some (.commit e)) ∨
       (s.frontFor d = none ∧ (∀ e, ¬ s.CommitReady d e) ∧ s.grantFor d = none)) := by
  unfold State.grantFor
  split
  next r hr =>
    have hp := List.find?_some hr
    simp only [Bool.and_eq_true, decide_eq_true_eq, Bool.not_eq_true'] at hp
    obtain ⟨⟨hdie, hprobe⟩, hungated⟩ := hp
    exact .inl ⟨r, ⟨List.mem_of_find?_eq_some hr, hdie, hprobe, hungated⟩, rfl⟩
  next hnone =>
    refine .inr ⟨?none, ?rest⟩
    case none =>
      rintro r ⟨hmem, hdie, hprobe, hungated⟩
      exact List.find?_eq_none.1 hnone r hmem (by simp [hdie, hprobe, hungated])
    case rest =>
      split
      next row e hf hc => exact .inl ⟨row, e, hf, State.commitReady_iff.1 hc, rfl⟩
      next row hf hc => exact .inr (.inl ⟨row, hf, State.no_commitReady_iff.1 hc, rfl⟩)
      next e hf hc => exact .inr (.inr (.inl ⟨e, hf, State.commitReady_iff.1 hc, rfl⟩))
      next hf hc => exact .inr (.inr (.inr ⟨hf, State.no_commitReady_iff.1 hc, rfl⟩))

/-- A commit that is granted may be granted, and a front read that waits with it has had its turns (R69). -/
theorem State.grantFor_commit {s : State} {d : Die} {e : Entry} (h : s.grantFor d = some (.commit e)) :
    s.CommitReady d e ∧
      ∀ row, s.frontFor d = some row → s.control.settings.patience ≤ (s.media.dies.get d).patience := by
  obtain ⟨r, -, hg⟩ | ⟨-, ⟨row, e', -, hc, hg⟩ | ⟨row, -, -, hg⟩ | ⟨e', hf, hc, hg⟩ | ⟨-, -, hg⟩⟩ :=
    s.grantFor_branches d
  · simp [hg] at h
  · rw [hg] at h
    split at h
    · simp at h
    next hp =>
      obtain rfl : e' = e := by simpa using h
      exact ⟨hc, fun _ _ => Nat.not_lt.1 hp⟩
  · simp [hg] at h
  · obtain rfl : e' = e := by simpa [hg] using h
    exact ⟨hc, by simp [hf]⟩
  · simp [hg] at h

theorem State.grantFor_service {s : State} {d : Die} {r : ServiceRequest} (h : s.grantFor d = some (.service r)) :
    s.ServiceReady d r := by
  obtain ⟨_, hmem, ⟨⟩, hdie, hprobe, hungated⟩ | ⟨_, _, ⟨⟩, _⟩ | ⟨_, ⟨⟩, _⟩ := State.grantFor_cases h
  exact ⟨hmem, hdie, hprobe, hungated⟩

/-- A front read that is granted contests where a commit that may be granted waits too, and then only below the drain
patience (R68, R69). -/
theorem State.grantFor_front {s : State} {d : Die} {row : Nat} {contested : Bool}
    (h : s.grantFor d = some (.front row contested)) :
    s.frontFor d = some row ∧ (contested = true ↔ ∃ e, s.CommitReady d e) ∧
      (contested = true → (s.media.dies.get d).patience < s.control.settings.patience) := by
  obtain ⟨r, -, hg⟩ | ⟨-, ⟨row', e, hf, hc, hg⟩ | ⟨row', hf, hc, hg⟩ | ⟨e, -, -, hg⟩ | ⟨-, -, hg⟩⟩ :=
    s.grantFor_branches d
  · simp [hg] at h
  · rw [hg] at h
    split at h
    next hp =>
      obtain ⟨rfl, rfl⟩ : row' = row ∧ true = contested := by simpa using h
      exact ⟨hf, by simpa using ⟨e, hc⟩, fun _ => hp⟩
    · simp at h
  · obtain ⟨rfl, rfl⟩ : row' = row ∧ false = contested := by simpa [hg] using h
    exact ⟨hf, by simpa using hc, nofun⟩
  · simp [hg] at h
  · simp [hg] at h

theorem State.grantFor_service_first {s : State} {d : Die} {g : Grant} (h : s.grantFor d = some g)
    (hr : ∃ r, s.ServiceReady d r) : ∃ r, g = .service r := by
  obtain ⟨r, -, hg⟩ | ⟨hnone, -⟩ := s.grantFor_branches d
  · exact ⟨r, by simpa [hg, eq_comm] using h⟩
  · exact absurd hr (not_exists.2 hnone)

theorem State.grantFor_eq_none_iff {s : State} {d : Die} : s.grantFor d = none ↔
    (∀ r, ¬ s.ServiceReady d r) ∧ s.frontFor d = none ∧ ∀ e, ¬ s.CommitReady d e := by
  obtain ⟨r, hr, hg⟩ | ⟨hs, ⟨row, e, hf, -, hg⟩ | ⟨row, hf, -, hg⟩ | ⟨e, hf, hc, hg⟩ | ⟨hf, hc, hg⟩⟩ :=
    s.grantFor_branches d
  · simpa [hg] using fun h => absurd hr (h r)
  · have : s.grantFor d ≠ none := by rw [hg]; split <;> simp
    simp [this, hf]
  · simp [hg, hf]
  · simpa [hg, hf] using fun _ => ⟨e, hc⟩
  · simp [hg, hf, hs, hc]

theorem State.frontFor_eq_none_iff {s : State} {d : Die} :
    s.frontFor d = none ↔ ∀ row, s.media.frontRead = some row → rowOnDie d row = false := by
  simp [Option.eq_none_iff_forall_ne_some, State.frontFor_iff]

/-- No service operation for the die is ready where each that waits is a write held back by the gate (R70). -/
theorem State.no_serviceReady_iff {s : State} {d : Die} : (∀ r, ¬ s.ServiceReady d r) ↔
    ∀ r ∈ s.media.services, r.op.die = d → r.op.isProbe = false →
      r.op.media.isWrite = true ∧ s.drop.state ≠ .calm ∧ s.control.state ≠ .flushing := by
  simp [State.ServiceReady, State.serviceUngated_iff]

/-! ### The obligation -/

/-- Settles O60: what may be granted and offered in words, then `State.grantFor_branches` read for each kind of grant. -/
theorem grantsObeyGateBudgetAndPatience : Obligations.GrantsObeyGateBudgetAndPatience := by
  refine ⟨fun op => ⟨ServiceOp.isProbe_iff, op.die_eq, op.media_eq⟩, fun _ => MediaKind.isWrite_iff,
    fun d row => rowOnDie_iff d row, fun s d g hg => ⟨?commit, ?service, ?front, ?first⟩, ?none, ?offer⟩
  case commit =>
    rintro e rfl
    obtain ⟨⟨ho, hgr⟩, hpatience⟩ := State.grantFor_commit hg
    obtain ⟨hallowed, holdest, hwaiting⟩ := State.offer_iff.1 ho
    obtain ⟨hgate, hbudget⟩ := State.grantable_iff.1 hgr
    refine ⟨holdest, hwaiting, ?_, hgate, hbudget, fun row hr hd => hpatience row (State.frontFor_iff.2 ⟨hr, hd⟩)⟩
    rcases State.commitsAllowed_iff.1 hallowed with hf | ⟨hs, -⟩
    · simp [hf]
    · exact hs
  case service =>
    rintro r rfl
    obtain ⟨hmem, hdie, -, hungated⟩ := State.grantFor_service hg
    refine ⟨hmem, hdie, fun hw => (State.serviceUngated_iff.1 hungated).resolve_left ?_⟩
    simp [MediaKind.isWrite_iff.2 hw]
  case front =>
    rintro row contested rfl
    obtain ⟨hf, hcontest, hpatience⟩ := State.grantFor_front hg
    obtain ⟨hr, hd⟩ := State.frontFor_iff.1 hf
    exact ⟨hr, hd, hcontest, hpatience⟩
  case first =>
    rintro ⟨r, hmem, hdie, hprobe, hungated⟩
    exact State.grantFor_service_first hg ⟨r, hmem, hdie, hprobe, State.serviceUngated_iff.2 hungated⟩
  case none =>
    intro s d
    rw [State.grantFor_eq_none_iff, State.no_serviceReady_iff, State.frontFor_eq_none_iff]
    simp [State.CommitReady]
  case offer =>
    intro s d e
    refine ⟨?_, State.grantable_iff⟩
    rw [State.offer_iff, State.commitsAllowed_iff, and_comm, and_assoc]
    rfl

end Sys2Proof.Machine
end

section
/-! What the motion and battery lines leave unchanged in the Hold Queue, the Die Scheduler, the Service Controller and the
image of a consumption write (chapters 5 and 6). -/

namespace Sys2Proof.Machine

/-- The queue, the dies with their requests, the Service Controller and a consumption write's image are as they were. -/
structure State.StoresKept (s t : State) : Prop where
  queue : t.queue = s.queue
  media : t.media = s.media
  control : t.control = s.control
  consumption : t.report.consumption = s.report.consumption

theorem State.StoresKept.refl (s : State) : s.StoresKept s := ⟨rfl, rfl, rfl, rfl⟩

theorem State.StoresKept.trans {s t u : State} (h : s.StoresKept t) (h' : t.StoresKept u) : s.StoresKept u :=
  ⟨h'.queue.trans h.queue, h'.media.trans h.media, h'.control.trans h.control, h'.consumption.trans h.consumption⟩

/-! ### Records -/

@[simp] theorem ReportMemory.append_consumption (r : ReportMemory) (mask : BitVec 16) (stamp : Tick) (p : Payload) :
    (r.append mask stamp p).consumption = r.consumption := by
  have room : r.makeRoom.consumption = r.consumption := by
    unfold ReportMemory.makeRoom
    split
    · rfl
    · split
      · rfl
      · rfl
  exact room

@[simp] theorem passReady_consumption (mask : BitVec 16) (stamp : Tick) (l : List Drop) (r : ReportMemory) :
    (passReady mask stamp l r).2.consumption = r.consumption := by
  induction l generalizing r with
  | nil => rfl
  | cons x l ih =>
    unfold passReady
    split
    · rfl
    · rw [ih, ReportMemory.append_consumption]

@[simp] theorem State.record_consumption (s : State) (p : Payload) :
    (s.record p).report.consumption = s.report.consumption := by
  simp [State.record]

@[simp] theorem State.reportDrops_consumption (s : State) :
    s.reportDrops.report.consumption = s.report.consumption := by
  unfold State.reportDrops
  split
  · simp
  · rfl

theorem State.storesKept_record (s : State) (p : Payload) : s.StoresKept (s.record p) :=
  ⟨by simp, by simp, by simp, by simp⟩

theorem State.storesKept_reportDrops (s : State) : s.StoresKept s.reportDrops := ⟨by simp, by simp, by simp, by simp⟩

theorem State.storesKept_withPins (s : State) (p : LineLevels) : s.StoresKept (s.withPins p) := ⟨rfl, rfl, rfl, rfl⟩

theorem State.storesKept_withDrop (s : State) (m : DropMonitor) : s.StoresKept (s.withDrop m) := ⟨rfl, rfl, rfl, rfl⟩

theorem State.storesKept_withGauge (s : State) (g : Gauge) : s.StoresKept (s.withGauge g) := ⟨rfl, rfl, rfl, rfl⟩

theorem State.storesKept_dropDeparted (s : State) (tag : Option Tick) (way : Departure) :
    s.StoresKept (s.dropDeparted tag way) := by
  cases tag with
  | none => exact .refl s
  | some number => exact (s.storesKept_withDrop _).trans (State.storesKept_reportDrops _)

/-- The load of the two counters renumbers drops and records and reports the drops that are ready (R103, R153). -/
theorem State.storesKept_loadCounters (s : State) (dropBase sequenceBase : Tick) :
    s.StoresKept (s.loadCounters dropBase sequenceBase) := by
  have loaded : s.StoresKept ((s.withDrop (s.drop.load dropBase)).withReport (s.report.load sequenceBase)) :=
    ⟨rfl, rfl, rfl, rfl⟩
  exact loaded.trans (State.storesKept_reportDrops _)

/-! ### The motion lines (chapter 5) -/

variable {s t : State}

theorem storesKept_execFfallRise (h : execFfallRise s = .next t) : s.StoresKept t := by
  have stamped (m : DropMonitor) : s.StoresKept ((s.withPins { s.pins with ffall := true }).withDrop m) :=
    ⟨rfl, rfl, rfl, rfl⟩
  cases h
  split
  · exact .refl s
  · dsimp only
    split
    all_goals exact (stamped _).trans (State.storesKept_withDrop _ _)

theorem storesKept_execFfallFall (h : execFfallFall s = .next t) : s.StoresKept t := by
  have low := s.storesKept_withPins { s.pins with ffall := false }
  cases h
  split
  · dsimp only
    split
    · exact (low.trans (State.storesKept_withDrop _ _)).trans (State.storesKept_record _ _)
    · split
      · exact low
      · exact low.trans (State.storesKept_withDrop _ _)
      · exact low.trans (State.storesKept_withDrop _ _)
  · exact .refl s

theorem storesKept_execFimpRise (h : execFimpRise s = .next t) : s.StoresKept t := by
  have high := s.storesKept_withPins { s.pins with fimp := true }
  cases h
  split
  · exact .refl s
  · dsimp only
    split
    · split
      · exact high.trans (State.storesKept_withDrop _ _)
      · exact high
    · exact high.trans (State.storesKept_withDrop _ _)
    · exact high.trans (State.storesKept_withDrop _ _)

theorem storesKept_execFimpFall (h : execFimpFall s = .next t) : s.StoresKept t := by
  cases h
  split
  · exact (s.storesKept_withPins _).trans (State.storesKept_withDrop _ _)
  · exact .refl s

theorem storesKept_execMergeTimerExpiry (h : execMergeTimerExpiry s = .next t) : s.StoresKept t := by
  cases h
  split
  · exact s.storesKept_withDrop _
  · exact .refl s

theorem State.storesKept_closeDrop (s : State) (ceiling : Bool) : s.StoresKept (s.closeDrop ceiling) :=
  (s.storesKept_withDrop _).trans (State.storesKept_reportDrops _)

theorem State.storesKept_suspendFreeFall (s : State) (drop : Tick) (ceilingMs : Nat) :
    s.StoresKept (s.suspendFreeFall drop ceilingMs) := by
  unfold State.suspendFreeFall
  split
  · exact (s.storesKept_withDrop _).trans (State.storesKept_record _ _)
  · exact .refl s

/-! ### The battery lines and the gates (chapter 6) -/

theorem State.storesKept_batteryEdge (s : State) (edge : HeldEdge) : s.StoresKept (s.batteryEdge edge) := by
  have gauged (g : Gauge) := s.storesKept_withGauge g
  cases edge with
  | chgdone =>
    unfold State.batteryEdge
    dsimp only
    split
    · exact gauged _
    · exact .refl s
  | pkempty =>
    unfold State.batteryEdge
    dsimp only
    split
    · split
      · exact ((gauged _).trans (State.storesKept_record _ _)).trans (State.storesKept_withGauge _ _)
      · exact gauged _
    · exact .refl s
  | pkpresFall => exact (gauged _).trans (State.storesKept_record _ _)
  | pkpresRise => exact (gauged _).trans (State.storesKept_record _ _)

theorem State.storesKept_takeBatteryEdge (s : State) (edge : HeldEdge) : s.StoresKept (s.takeBatteryEdge edge) := by
  unfold State.takeBatteryEdge
  split
  · exact s.storesKept_withGauge _
  · exact s.storesKept_batteryEdge edge

theorem State.storesKept_endGaugeHold (s : State) : s.StoresKept s.endGaugeHold := by
  have edges (l : List HeldEdge) (s : State) : s.StoresKept (l.foldl State.batteryEdge s) := by
    induction l generalizing s with
    | nil => exact .refl s
    | cons e l ih => exact (s.storesKept_batteryEdge e).trans (ih _)
  unfold State.endGaugeHold
  split
  · exact (s.storesKept_withGauge _).trans (edges _ _)
  · exact .refl s

theorem storesKept_execGateEnd (h : execGateEnd s = .next t) : s.StoresKept t := by
  cases h
  split
  · unfold State.endGate
    dsimp only
    split
    · exact s.storesKept_withGauge _
    · exact (s.storesKept_withGauge _).trans (State.storesKept_record _ _)
  · exact .refl s

theorem storesKept_execMinuteBoundary (h : execMinuteBoundary s = .next t) : s.StoresKept t := by
  cases h
  split
  · exact s.storesKept_withGauge _
  · exact .refl s

theorem storesKept_execPkpresFall (h : execPkpresFall s = .next t) : s.StoresKept t := by
  cases h
  split
  · exact (s.storesKept_withPins _).trans (State.storesKept_takeBatteryEdge _ _)
  · exact .refl s

theorem storesKept_execPkpresRise (h : execPkpresRise s = .next t) : s.StoresKept t := by
  cases h
  split
  · exact .refl s
  · exact (s.storesKept_withPins _).trans (State.storesKept_takeBatteryEdge _ _)

end Sys2Proof.Machine
end

section
/-! The Die Scheduler between the consequences of an event (R39, R65, R69): the law that the lines, the patience counters and
the failure count keep while transfers become ready, one lemma per shared operation. -/

namespace Sys2Proof.Machine

/-- The scheduler's law short of one half: a transfer that has become ready in this event may not have joined those that wait
for the lines yet (R65). -/
structure State.LinesLaw (s : State) : Prop where
  limit : 1 ≤ s.control.settings.patience ∧ s.control.settings.patience ≤ 8
  patience : ∀ d, (s.media.dies.get d).patience ≤ 8
  failures : s.media.mediaFailures ≤ 65535
  once : s.media.lines.Nodup
  transfers : ∀ d ∈ s.media.lines, (s.die d).inTransfer = true

theorem State.schedulerLaw_iff {s : State} :
    s.SchedulerLaw ↔ s.LinesLaw ∧ ∀ d, (s.die d).inTransfer = true → d ∈ s.media.lines :=
  ⟨fun ⟨hl, hp, hf, ho, ht⟩ => ⟨⟨hl, hp, hf, ho, fun d => (ht d).1⟩, fun d => (ht d).2⟩,
    fun ⟨⟨hl, hp, hf, ho, ht⟩, hj⟩ => ⟨hl, hp, hf, ho, fun d => ⟨ht d, hj d⟩⟩⟩

theorem State.SchedulerLaw.linesLaw {s : State} (h : s.SchedulerLaw) : s.LinesLaw := (State.schedulerLaw_iff.1 h).1

/-! ### Dies and their records -/

/-- A change of a die's record that the lines and the patience counters do not see. -/
def DieRecord.SchedulerKept (r r' : DieRecord) : Prop :=
  r'.state.inTransfer = r.state.inTransfer ∧ (r.patience ≤ 8 → r'.patience ≤ 8)

theorem DieRecord.restand_schedulerKept (standing : Standing) (r : DieRecord) : r.SchedulerKept (r.restand standing) := by
  unfold DieRecord.restand
  split
  · exact ⟨rfl, id⟩
  · exact ⟨rfl, id⟩
  next op hop =>
    split
    · exact ⟨rfl, id⟩
    · exact ⟨rfl, id⟩
    · exact ⟨by rw [hop]; rfl, id⟩

theorem DieRecord.abandon_schedulerKept (r : DieRecord) : r.SchedulerKept r.abandon := by
  unfold DieRecord.abandon
  split
  · exact ⟨rfl, id⟩
  · exact ⟨rfl, id⟩
  next op hop =>
    split
    · exact ⟨by rw [hop]; rfl, id⟩
    · exact ⟨rfl, id⟩
    · exact ⟨rfl, id⟩

@[simp] theorem Phase.advance_isTransfer (p : Phase) : p.advance.isTransfer = p.isTransfer := by cases p <;> rfl

theorem DieRecord.advance_schedulerKept (r : DieRecord) : r.SchedulerKept r.advance := by
  unfold DieRecord.advance
  split
  · exact ⟨rfl, id⟩
  · exact ⟨rfl, id⟩
  next op hop => exact ⟨by rw [hop]; simp [DieState.inTransfer], id⟩

theorem DieRecord.clearPatience_schedulerKept (r : DieRecord) : r.SchedulerKept { r with patience := 0 } :=
  ⟨rfl, fun _ => Nat.zero_le 8⟩

/-! ### Settings in force (R173) -/

theorem testProfile_patience {page : Page} {p : ProfileImage} {clamped : Bool} (h : testProfile page = .accepted p clamped) :
    1 ≤ p.live.patience ∧ p.live.patience ≤ 8 := by
  unfold testProfile at h
  split at h
  · dsimp only at h
    split at h
    · cases h
      exact clampNat_range _ (by decide)
    · cases h
  · cases h

theorem defaultProfile_patience : 1 ≤ defaultProfile.live.patience ∧ defaultProfile.live.patience ≤ 8 := by decide

namespace State.LinesLaw

variable {s : State} (h : s.LinesLaw)
include h

theorem not_mem_lines {d : Die} (hd : (s.die d).inTransfer = false) : d ∉ s.media.lines := fun hm => by
  have ht := h.transfers d hm
  rw [hd] at ht
  cases ht

/-! ### Updates of one block -/

/-- The law speaks of the dies, the lines, the failure count and the drain patience alone. -/
theorem of_frame {t : State}
    (ht : t.media.dies = s.media.dies ∧ t.media.lines = s.media.lines ∧ t.media.mediaFailures = s.media.mediaFailures ∧
      t.control.settings.patience = s.control.settings.patience) : t.LinesLaw := by
  obtain ⟨hd, hl, hf, hs⟩ := ht
  refine ⟨hs ▸ h.limit, hd ▸ h.patience, hf ▸ h.failures, hl ▸ h.once, ?_⟩
  unfold State.die
  rw [hd, hl]
  exact h.transfers

theorem of_stores {t : State} (ht : s.StoresKept t) : t.LinesLaw :=
  h.of_frame (by rw [ht.media, ht.control]; exact ⟨rfl, rfl, rfl, rfl⟩)

theorem withSettings {c : Controller} (hc : 1 ≤ c.settings.patience ∧ c.settings.patience ≤ 8) :
    (s.withControl c).LinesLaw :=
  { h with limit := hc }

theorem withSequence (q : Sequence) : (s.withSequence q).LinesLaw := h.of_frame ⟨rfl, rfl, rfl, rfl⟩

/-- A die that no line names takes any state. -/
theorem withDie {d : Die} (hd : d ∉ s.media.lines) (x : DieState) : (s.withDie d x).LinesLaw where
  limit := h.limit
  failures := h.failures
  once := h.once
  patience e := by
    rw [State.withDie_media, PerDie.get_set]
    split
    · exact h.patience d
    · exact h.patience e
  transfers e he := by
    have hne : e ≠ d := fun hed => hd (hed ▸ he)
    rw [State.withDie_die, if_neg hne]
    exact h.transfers e he

theorem withPatience (d : Die) {n : Nat} (hn : n ≤ 8) : (s.withPatience d n).LinesLaw where
  limit := h.limit
  failures := h.failures
  once := h.once
  patience e := by
    rw [State.withPatience_media, PerDie.get_set]
    split
    · exact hn
    · exact h.patience e
  transfers e he := by
    rw [State.withPatience_die]
    exact h.transfers e he

theorem mapDies {f : DieRecord → DieRecord} (hf : ∀ r, DieRecord.SchedulerKept r (f r)) {m : Scheduler}
    (hm : m.dies = s.media.dies.map f ∧ m.lines = s.media.lines ∧ m.mediaFailures = s.media.mediaFailures) :
    (s.withMedia m).LinesLaw := by
  obtain ⟨hd, hl, hn⟩ := hm
  have state (e : Die) : ((s.withMedia m).die e).inTransfer = (s.die e).inTransfer := by
    rw [State.die, State.withMedia_media, hd, PerDie.get_map]
    exact (hf _).1
  refine ⟨h.limit, fun e => ?_, by simpa [hn] using h.failures, by simpa [hl] using h.once, fun e he => ?_⟩
  · rw [State.withMedia_media, hd, PerDie.get_map]
    exact (hf _).2 (h.patience e)
  · rw [state]
    exact h.transfers e (by simpa [hl] using he)

theorem restand (m : Scheduler) (hm : m.dies = s.media.dies ∧ m.lines = s.media.lines ∧
    m.mediaFailures = s.media.mediaFailures) (standing : Standing) : (s.withMedia (m.restand standing)).LinesLaw := by
  obtain ⟨hd, hl, hn⟩ := hm
  exact h.mapDies (DieRecord.restand_schedulerKept standing) ⟨by rw [← hd]; rfl, hl, hn⟩

theorem countFailure : s.countFailure.LinesLaw := { h with failures := satAdd_le 65535 _ 1 }

theorem releaseLines : s.releaseLines.LinesLaw where
  limit := h.limit
  patience := h.patience
  failures := h.failures
  once := h.once.sublist (List.drop_sublist 1 _)
  transfers d hd := h.transfers d (List.mem_of_mem_drop hd)

/-- A die whose transfer has the lines is no longer named once it releases them. -/
theorem not_mem_releaseLines {d : Die} (hd : s.hasLines d = true) : d ∉ s.releaseLines.media.lines := by
  have once := h.once
  obtain ⟨waiting, hl⟩ : ∃ waiting, s.media.lines = d :: waiting := by
    simpa [State.hasLines, List.head?_eq_some_iff] using hd
  rw [hl] at once
  simpa [State.releaseLines, hl] using (List.nodup_cons.1 once).1

/-! ### Applies (R174, R175, R181) -/

theorem laterApply {p : ProfileImage} (hp : 1 ≤ p.live.patience ∧ p.live.patience ≤ 8) (page : Option Nat) :
    (s.laterApply p page).1.LinesLaw :=
  (h.withSettings (c := { s.control with settings := p.live }) hp).of_frame ⟨rfl, rfl, rfl, rfl⟩

theorem wholeApply {p : ProfileImage} (hp : 1 ≤ p.live.patience ∧ p.live.patience ≤ 8) (page : Option Nat) (g : Gauge) :
    (s.wholeApply p page g).1.LinesLaw :=
  (h.withSettings (c := { s.control with settings := p.live }) hp).of_frame ⟨rfl, rfl, rfl, rfl⟩

theorem serviceApply (image : Page) (page : Nat) : (s.serviceApply image page).LinesLaw := by
  unfold State.serviceApply
  split
  · exact h.of_frame (by simp)
  next profile clamped hp => exact (h.laterApply (testProfile_patience hp) (some page)).of_frame (by simp)

theorem applyAtStartUp (r : ScanResult) : (s.applyAtStartUp r).LinesLaw := by
  have applied {p : ProfileImage} (hp : 1 ≤ p.live.patience ∧ p.live.patience ≤ 8) (page : Option Nat) :
      (s.startUpApply p page).1.LinesLaw := h.wholeApply hp page _
  have defaults := applied defaultProfile_patience none
  unfold State.applyAtStartUp
  split
  next page image failed =>
    split
    · exact defaults.of_frame (by simp)
    next profile clamped hp => exact (applied (testProfile_patience hp) (some page)).of_frame (by simp)
  · exact defaults.of_frame (by simp)
  · exact defaults.of_frame (by simp)

theorem applyAtLineReset (r : ScanResult) : (s.applyAtLineReset r).LinesLaw := by
  unfold State.applyAtLineReset
  split
  next page image failed =>
    split
    · exact h.of_frame (by simp)
    next profile clamped hp => exact (h.laterApply (testProfile_patience hp) (some page)).of_frame (by simp)
  · exact (h.laterApply defaultProfile_patience none).of_frame (by simp)
  · exact h.of_frame (by simp)

/-! ### The Service Controller's sequences (R145, R170 to R183): they make requests and touch neither the dies nor the lines -/

theorem request (op : ServiceOp) : (s.request op).LinesLaw := h.of_frame ⟨rfl, rfl, rfl, rfl⟩

theorem openOrFinish (o : Opening) : (s.openOrFinish o).LinesLaw := by
  unfold State.openOrFinish
  split
  · unfold State.openNote
    split
    · exact (h.withSequence _).request _
    · exact (h.withSequence _).request _
  · exact h.of_frame (by simp)

theorem settleNote (best : Option (Nat × Page)) : (s.settleNote best).LinesLaw := by
  unfold State.settleNote
  split
  · exact LinesLaw.openOrFinish (h.of_frame (by simp)) _
  · split
    · exact LinesLaw.openOrFinish (h.of_frame (by simp)) _
    · exact LinesLaw.openOrFinish (h.of_frame (by simp)) _

theorem loseNote : s.loseNote.LinesLaw := h.of_frame (by simp)

theorem noteScanned (page : Nat) (best : Option (Nat × Page)) (data : Page) : (s.noteScanned page best data).LinesLaw := by
  have placed (n : Nat) : (s.withControl { s.control with nextNotePage := some n }).LinesLaw := h.of_frame (by simp)
  unfold State.noteScanned
  split
  · exact (placed page).settleNote best
  · dsimp only
    split
    · exact (placed 128).settleNote _
    · exact (h.withSequence _).request _

theorem probeNext (dies : List Die) : (s.probeNext dies).LinesLaw := by
  cases dies with
  | nil =>
    unfold State.probeNext State.beginNoteScan
    dsimp only
    split
    · exact (h.withSequence _).request _
    · exact h.loseNote.settleNote none
  | cons d rest => exact (h.withSequence _).request _

theorem scanEnded (purpose : ScanFor) (result : ScanResult) : (s.scanEnded purpose result).LinesLaw := by
  cases purpose with
  | startUp => exact (h.applyAtStartUp result).probeNext _
  | lineReset => exact (h.applyAtLineReset result).of_frame (by simp [State.scanEnded])

theorem beginScan (purpose : ScanFor) : (s.beginScan purpose).LinesLaw := by
  unfold State.beginScan
  exact iteInduction (motive := State.LinesLaw) (fun _ => (h.withSequence _).request _)
    (fun _ => h.scanEnded purpose .unread)

theorem scanOn (purpose : ScanFor) (page : Nat) (best : Option (Nat × Page)) (failed : Nat) :
    (s.scanOn purpose page best failed).LinesLaw := by
  unfold State.scanOn
  split
  · exact h.scanEnded purpose _
  · exact (h.withSequence _).request _

theorem profileScanned (purpose : ScanFor) (page : Nat) (best : Option (Nat × Page)) (failed : Nat) (data : Page) :
    (s.profileScanned purpose page best failed data).LinesLaw := by
  unfold State.profileScanned
  split
  · exact h.scanEnded purpose _
  · split
    · exact h.scanOn _ _ _ _
    · exact h.scanOn _ _ _ _

theorem lineProbeNext (dies : List Die) : (s.lineProbeNext dies).LinesLaw := by
  cases dies with
  | nil => exact h.withSequence _
  | cons d rest => exact (h.withSequence _).request _

theorem beginRecovery : s.beginRecovery.LinesLaw := by
  have counted : s.recoverCounters.LinesLaw := h.of_frame (by simp)
  have settings : s.recoverCounters.recoverSettings.LinesLaw := by
    unfold State.recoverSettings
    split
    · exact counted.wholeApply defaultProfile_patience none _
    · exact counted
  have reported : s.recoverCounters.recoverSettings.recoverDrops.LinesLaw := settings.of_frame (by simp)
  exact reported.openOrFinish .dipRecovery

theorem enterSpent : s.enterSpent.LinesLaw := by
  have spent : ((s.withSequence .none).withServiceState .spent).LinesLaw := h.of_frame (by simp)
  unfold State.enterSpent
  dsimp only
  split
  · exact spent.beginRecovery
  · exact spent

theorem stopStartUp : s.stopStartUp.LinesLaw := by
  have withdrawn := h.restand s.media.withdrawNotes ⟨rfl, rfl, rfl⟩ .disregarded
  unfold State.stopStartUp
  exact LinesLaw.enterSpent (withdrawn.of_frame (by simp))

theorem stopRecovery : s.stopRecovery.LinesLaw :=
  (h.restand s.media.withdrawNotes ⟨rfl, rfl, rfl⟩ .noteOnly).withSequence .none

theorem endFlush (outcome : FlushNoteOutcome) : (s.endFlush outcome).LinesLaw := by
  have noted : (s.withControl { s.control with flushNote := some outcome }).LinesLaw := h.of_frame (by simp)
  exact noted.enterSpent

theorem endDrain : s.endDrain.LinesLaw := by
  have lost : s.loseEntries.LinesLaw := h.of_frame (by simp)
  unfold State.endDrain
  dsimp only
  split
  · exact (lost.withSequence _).request _
  · exact lost.endFlush _

theorem noteWritten (op : ServiceOp) (r : MediaResult) : (s.noteWritten op r).LinesLaw := h.of_frame (by simp)

theorem oldNoteWritten (op : ServiceOp) (r : MediaResult) : (s.oldNoteWritten op r).LinesLaw := by
  have noted := h.noteWritten op r
  have withdrawn : ((s.noteWritten op r).withMedia (s.noteWritten op r).media.withdrawNotes).LinesLaw :=
    noted.of_frame ⟨rfl, rfl, rfl, rfl⟩
  unfold State.oldNoteWritten
  dsimp only
  split
  case h_1 | h_2 =>
    split
    · exact noted
    · exact withdrawn.of_frame (by simp)
  all_goals exact noted

theorem sequenceResult (op : ServiceOp) (r : MediaResult) : (s.sequenceResult op r).LinesLaw := by
  unfold State.sequenceResult
  split
  next => exact h
  next => exact h
  next => exact h.beginScan .startUp
  next =>
    split
    · exact h.profileScanned _ _ _ _ _
    · exact h.scanOn _ _ _ _
    · exact h.scanEnded _ _
    · exact h.scanEnded _ _
  next => exact h.probeNext _
  next =>
    split
    · exact h.noteScanned _ _ _
    · exact h.loseNote.settleNote _
  next => exact (h.noteWritten op r).openOrFinish _
  next => exact (h.noteWritten op r).of_frame (by simp)
  next => exact h.lineProbeNext _
  next => exact h
  next => exact h
  next => exact (h.noteWritten op r).endFlush _

theorem serviceDone (request : ServiceRequest) (r : MediaResult) : (s.serviceDone request r).LinesLaw := by
  unfold State.serviceDone
  split
  · exact h.sequenceResult _ _
  · exact h.oldNoteWritten _ _
  · exact h

/-! ### Results of commits and front reads (R50, R51, R72) -/

theorem applyCommitted (e : Entry) : (s.applyCommitted e).LinesLaw := by
  unfold State.applyCommitted
  split
  · exact h.serviceApply _ _
  · exact h

theorem dropDeparted (tag : Option Tick) (way : Departure) : (s.dropDeparted tag way).LinesLaw := h.of_frame (by simp)

theorem passCommit (e : Entry) : (s.passCommit e).LinesLaw := by
  have left : ((s.withQueue { s.queue with failedRows := clearFailed s.queue.failedRows e }).countLeaving
      true |>.releaseFront e true).LinesLaw := h.of_frame (by simp)
  have chosen (n : Nat) := left.of_frame (t := State.withFree _ n) ⟨rfl, rfl, rfl, rfl⟩
  unfold State.passCommit State.afterPass
  dsimp only
  split
  · split
    · exact ((chosen _).dropDeparted _ _).applyCommitted e
    · exact ((chosen _).applyCommitted e).dropDeparted _ _
  · exact (left.dropDeparted _ _).applyCommitted e

theorem commitDone (d : Die) (r : MediaResult) : (s.commitDone d r).LinesLaw := by
  have left : (s.withQueue { s.queue with entries := removeOldest d s.queue.entries }).LinesLaw :=
    h.of_frame ⟨rfl, rfl, rfl, rfl⟩
  unfold State.commitDone
  split
  · exact h
  · dsimp only
    split
    · exact left.passCommit _
    · exact left.of_frame (by simp)

theorem frontReadDone (base : Page) (failed : Bool) : (s.frontReadDone base failed).LinesLaw := h.of_frame (by simp)

theorem handResult (d : Die) (requester : Requester) (r : MediaResult) (data : Page) :
    (s.handResult d requester r data).LinesLaw := by
  unfold State.handResult
  split
  · exact h
  · exact h.frontReadDone _ _
  · exact h.commitDone _ _
  · exact h.serviceDone _ _

/-! ### Grants (R49, R66 to R69) -/

/-- A die that has no transfer starts an operation: its command transfer becomes ready. -/
theorem startMedia {d : Die} (hd : (s.die d).inTransfer = false) (kind : MediaKind) (row : Option Nat) (image : Page)
    (requester : Requester) : (s.startMedia d kind row image requester).LinesLaw :=
  h.withDie (h.not_mem_lines hd) _

theorem startFront {d : Die} (hd : (s.die d).inTransfer = false) (row : Nat) : (s.startFront d row).LinesLaw := by
  have taken : (s.withMedia { s.media with frontRead := none }).LinesLaw := h.of_frame ⟨rfl, rfl, rfl, rfl⟩
  exact taken.startMedia hd _ _ _ _

theorem startCommit {d : Die} (hd : (s.die d).inTransfer = false) (e : Entry) : (s.startCommit d e).LinesLaw := by
  have marked : (s.withQueue { s.queue with entries := updateOldest d commitEntry s.queue.entries }).spendUnit.LinesLaw :=
    h.of_frame (by simp)
  exact (marked.withPatience d (Nat.zero_le 8)).startMedia (by simpa [State.die] using hd) _ _ _ _

theorem takeRequest (r : ServiceRequest) : (s.takeRequest r).LinesLaw := h.of_frame ⟨rfl, rfl, rfl, rfl⟩

theorem startService {d : Die} (hd : (s.die d).inTransfer = false) (r : ServiceRequest) :
    (s.startService d r).LinesLaw := by
  have started (kind : MediaKind) (row : Option Nat) (image : Page) :
      ((s.takeRequest r).startMedia d kind row image (.service r)).LinesLaw :=
    (h.takeRequest r).startMedia hd kind row image _
  unfold State.startService
  dsimp only
  split
  · exact started _ _ _
  · exact started _ _ _
  · exact started _ _ _
  · exact started _ _ _
  · exact (started .program (s.serviceRow r.op) s.composeOpenedNote).of_frame (by simp)
  next image _ =>
    split
    · exact (h.takeRequest r).endFlush _
    · exact (started .program (s.serviceRow r.op) image).of_frame (by simp)

/-! ### The consequences of an event (R65, R67, R75, R77) -/

theorem micro {t : State} (ht : s.micro = some t) : t.LinesLaw := by
  refine State.micro_keeps (P := State.LinesLaw) ?free ?service ?front ?commit ?probe ?pass ?fail ?failFront ?failCommit
    ?scan ?drain s t h ht
  case free => exact fun s n hs => hs.of_frame ⟨rfl, rfl, rfl, rfl⟩
  case service => exact fun s d r hs hd _ _ _ _ => hs.startService (by simp [hd, DieState.inTransfer]) r
  case front =>
    intro s d row contested hs hd _ _ hc
    have idle : (s.die d).inTransfer = false := by simp [hd, DieState.inTransfer]
    unfold State.perform
    dsimp only
    split
    next hcontested =>
      have below := hc hcontested
      have limit := hs.limit.2
      exact (hs.withPatience d (by omega)).startFront (by simpa using idle) row
    · exact hs.startFront idle row
  case commit => exact fun s d e hs hd _ _ => hs.startCommit (by simp [hd, DieState.inTransfer]) e
  case probe => exact fun s r hs _ hd _ => hs.startService (by simp [hd, DieState.inTransfer]) r
  case pass => exact fun s r hs _ _ _ => (hs.takeRequest r).serviceDone r _
  case fail => exact fun s r hs _ _ _ => (hs.takeRequest r).countFailure.serviceDone r _
  case failFront =>
    intro s d row hs _ _ _
    have taken : (s.withMedia { s.media with frontRead := none }).LinesLaw := hs.of_frame ⟨rfl, rfl, rfl, rfl⟩
    exact taken.countFailure.frontReadDone [] true
  case failCommit => exact fun s d e hs _ _ => hs.countFailure.commitDone d _
  case scan => exact fun s hs _ _ => hs.beginScan .lineReset
  case drain => exact fun s hs _ _ => hs.endDrain

/-- Every transfer that has become ready joins those that wait (R65). -/
theorem handLines : s.handLines.SchedulerLaw := by
  refine State.schedulerLaw_iff.2 ⟨⟨h.limit, h.patience, h.failures, ?_, fun d hd => ?_⟩, fun d hd => ?_⟩
  · refine List.nodup_append.2 ⟨h.once, (List.Nodup.filter _ (by decide)), ?_⟩
    rintro a ha b hb rfl
    simp [ha] at hb
  · rcases List.mem_append.1 hd with hd | hd
    · exact h.transfers d hd
    · have := (List.mem_filter.1 hd).2
      simp only [Bool.and_eq_true] at this
      exact this.1
  · refine List.mem_append.2 (or_iff_not_imp_left.2 fun hm => List.mem_filter.2 ⟨mem_allDies d, ?_⟩)
    have ready : (s.die d).inTransfer = true := hd
    simp [ready, hm]

theorem settled : s.settled.SchedulerLaw :=
  LinesLaw.handLines (pump_keeps (fun _ _ hs ht => hs.micro ht) _ _ h)

end State.LinesLaw

end Sys2Proof.Machine
end

section
/-! The Die Scheduler at every command (R39, R65, R69). -/

namespace Sys2Proof.Machine

/-! ### What the front's operations leave unchanged (chapter 2) -/

section FrontFrames

variable (s : State)

@[simp] theorem State.dropReceiving_frame : s.dropReceiving.media = s.media ∧ s.dropReceiving.control = s.control :=
  ⟨rfl, rfl⟩

@[simp] theorem State.endTransaction_frame :
    s.endTransaction.media = s.media ∧ s.endTransaction.control = s.control := by
  unfold State.endTransaction
  split
  all_goals exact ⟨rfl, rfl⟩

@[simp] theorem State.takeOperation_frame (kind : OpKind) :
    (s.takeOperation kind).media = s.media ∧ (s.takeOperation kind).control = s.control := by
  unfold State.takeOperation
  dsimp only
  split
  · exact ⟨rfl, rfl⟩
  split
  · exact ⟨rfl, rfl⟩
  split
  · exact ⟨rfl, rfl⟩
  · simp [State.deselect]

@[simp] theorem State.resetAwaiting_frame :
    s.resetAwaiting.media = s.media ∧ s.resetAwaiting.control = s.control := by
  unfold State.resetAwaiting
  split
  · simp
  · exact ⟨rfl, rfl⟩

@[simp] theorem State.refuse_frame (cause : RefusalCause) (op : OpKind) (row : BitVec 24) (absolute : Bool) :
    (s.refuse cause op row absolute).media = s.media ∧ (s.refuse cause op row absolute).control = s.control ∧
    (s.refuse cause op row absolute).queue = s.queue := by
  unfold State.refuse
  dsimp only
  split
  · exact ⟨rfl, rfl, rfl⟩
  · exact ⟨rfl, rfl, rfl⟩

@[simp] theorem State.receive_frame (op : Translated) :
    (s.receive op).media = s.media ∧ (s.receive op).control = s.control := by
  unfold State.receive
  split
  all_goals exact ⟨rfl, rfl⟩

@[simp] theorem State.takeData_frame (op : Translated) (next : Nat) (byte : Byte) :
    (s.takeData op next byte).media = s.media ∧ (s.takeData op next byte).control = s.control := by
  unfold State.takeData
  dsimp only
  split
  all_goals exact ⟨rfl, rfl⟩

@[simp] theorem State.accept_frame (op : Translated) (row : Nat) :
    (s.accept op row).media = s.media ∧ (s.accept op row).control = s.control := by
  simp [State.accept]

@[simp] theorem State.endConsumption_frame :
    s.endConsumption.media = s.media ∧ s.endConsumption.control = s.control ∧ s.endConsumption.queue = s.queue := by
  unfold State.endConsumption
  dsimp only
  split
  · exact ⟨rfl, rfl, rfl⟩
  · simp

end FrontFrames

namespace State.LinesLaw

variable {s : State} (h : s.LinesLaw)
include h

/-- An operation completes at a die that no line names (R72, R77). -/
theorem completeMedia {d : Die} (hd : d ∉ s.media.lines) (op : MediaOp) (r : MediaResult) (data : Page) :
    (s.completeMedia d op r data).SchedulerLaw := by
  have freed : (s.withDie d .idle).LinesLaw := h.withDie hd _
  unfold State.completeMedia
  refine LinesLaw.settled (LinesLaw.handResult ?_ _ _ _ _)
  split
  · exact freed
  · exact freed.countFailure

/-- A timer expires at a die that no line names (R73, R77). -/
theorem timeOut {d : Die} (hd : d ∉ s.media.lines) (op : MediaOp) (start : Tick) (timeoutMs : Nat) :
    (s.timeOut d op start timeoutMs).LinesLaw := by
  have off : (s.withDie d .offline).LinesLaw := h.withDie hd _
  have recorded (cause : OfflineCause) {u : State} (hu : u.LinesLaw) :
      (u.recordOffline d op cause start timeoutMs).LinesLaw := hu.of_stores (u.storesKept_record _)
  unfold State.timeOut
  split
  · exact (recorded _ off).handResult _ _ _ _
  all_goals exact recorded _ (off.countFailure.handResult _ _ _ _)

end State.LinesLaw

namespace State.SchedulerLaw

variable {s : State} (h : s.SchedulerLaw)
include h

/-! ### Updates that no transfer begins or ends with -/

theorem of_frame {t : State}
    (ht : t.media.dies = s.media.dies ∧ t.media.lines = s.media.lines ∧ t.media.mediaFailures = s.media.mediaFailures ∧
      t.control.settings.patience = s.control.settings.patience) : t.SchedulerLaw := by
  have lines := h.linesLaw.of_frame ht
  obtain ⟨hd, hl, -, -⟩ := ht
  refine State.schedulerLaw_iff.2 ⟨lines, ?_⟩
  unfold State.die
  rw [hd, hl]
  exact (State.schedulerLaw_iff.1 h).2

theorem of_media {t : State} (hm : t.media = s.media) (hc : t.control = s.control) : t.SchedulerLaw :=
  h.of_frame (by rw [hm, hc]; exact ⟨rfl, rfl, rfl, rfl⟩)

theorem of_stores {t : State} (ht : s.StoresKept t) : t.SchedulerLaw := h.of_media ht.media ht.control

theorem mapDies {f : DieRecord → DieRecord} (hf : ∀ r, DieRecord.SchedulerKept r (f r)) {m : Scheduler}
    (hm : m.dies = s.media.dies.map f ∧ m.lines = s.media.lines ∧ m.mediaFailures = s.media.mediaFailures) :
    (s.withMedia m).SchedulerLaw := by
  refine State.schedulerLaw_iff.2 ⟨h.linesLaw.mapDies hf hm, fun d hd => ?_⟩
  rw [State.die, State.withMedia_media, hm.1, PerDie.get_map, (hf _).1] at hd
  rw [State.withMedia_media, hm.2.1]
  exact (h.transfers d).2 hd

theorem withdraw : s.withdraw.SchedulerLaw := h.of_media (by simp) (by simp)

theorem detach : (s.withQueue s.queue.detach).SchedulerLaw := h.of_media rfl rfl

theorem abandonRead : s.abandonRead.SchedulerLaw := h.mapDies DieRecord.abandon_schedulerKept ⟨rfl, rfl, rfl⟩

/-! ### The front store bus (R19 to R37) -/

theorem execStatus {t : State} (ht : execStatus s = .next t) : t.SchedulerLaw := by
  cases ht
  split
  · exact h
  split
  · exact h.of_media rfl rfl
  · exact h.of_media s.endTransaction_frame.1 s.endTransaction_frame.2

theorem resetOperation : s.resetOperation.SchedulerLaw := by
  have ended : s.endTransaction.SchedulerLaw := h.of_media (by simp) (by simp)
  unfold State.resetOperation
  split
  · exact h
  · exact ended
  · exact h.abandonRead.of_media rfl rfl
  · exact ended
  · exact ended
  · exact h.of_media (by simp) (by simp)

theorem execReset {t : State} (ht : execReset s = .next t) : t.SchedulerLaw := by
  cases ht
  split
  · exact h
  split
  · exact h.of_media rfl rfl
  · exact h.resetOperation.of_media rfl rfl

theorem takeOperation (kind : OpKind) : (s.takeOperation kind).SchedulerLaw := h.of_media (by simp) (by simp)

theorem execUnknownOperationByte {byte : Byte} {t : State} (ht : execUnknownOperationByte byte s = .next t) :
    t.SchedulerLaw := by
  unfold Machine.execUnknownOperationByte at ht
  split at ht
  · cases ht
    exact h
  · cases ht
    exact h.takeOperation .read
  · cases ht
    exact h.takeOperation .program
  · cases ht
    exact h.takeOperation .erase
  · exact h.execStatus ht
  · exact h.execReset ht

theorem snoop (row column : Nat) : (s.snoop row column).SchedulerLaw := by
  unfold State.snoop
  split
  · exact h.of_media rfl rfl
  · have loading : ((s.withMedia { s.media with frontRead := some row }).withFrontState (.loading row column)).LinesLaw :=
      h.linesLaw.of_frame ⟨rfl, rfl, rfl, rfl⟩
    exact loading.settled

theorem route (op : Translated) : (s.route op).SchedulerLaw := by
  have passed : s.clearRefused.SchedulerLaw := h.of_media rfl rfl
  unfold State.route
  dsimp only
  split
  · split
    · exact passed.snoop _ _
    · exact passed.of_media rfl rfl
    · exact passed.snoop _ _
    · exact passed.snoop _ _
  · exact passed.of_media (by simp) (by simp)
  · exact passed.of_media (by simp) (by simp)

theorem execAddressByte {byte : Byte} {t : State} (ht : execAddressByte byte s = .next t) : t.SchedulerLaw := by
  cases ht
  split
  · exact h
  split
  · unfold State.endAddress
    split
    · exact h.of_media (by simp) (by simp)
    · exact h.route _
  · exact h.of_media rfl rfl
  all_goals exact h

theorem execDataByte {byte : Byte} {t : State} (ht : execDataByte byte s = .next t) : t.SchedulerLaw := by
  cases ht
  split
  · exact h
  split
  · split
    · exact h.of_media (by simp) (by simp)
    · exact h
  all_goals exact h

theorem execReadStrobe {t : State} (ht : execReadStrobe s = .next t) : t.SchedulerLaw := by
  cases ht
  split
  · exact h.of_media rfl rfl
  split
  all_goals exact h.of_media rfl rfl

theorem execEnd {t : State} (ht : execEnd s = .next t) : t.SchedulerLaw := by
  have accepted (op : Translated) (row : Nat) : (s.accept op row).offerAnew.SchedulerLaw := by
    have queued : (s.accept op row).SchedulerLaw := h.of_media (by simp) (by simp)
    unfold State.offerAnew
    split
    · exact queued.linesLaw.settled
    · exact queued
  cases ht
  split
  · exact h
  split
  · split
    · exact h.of_media (by simp) (by simp)
    · exact accepted _ _
    · exact accepted _ _
    · exact accepted _ _
  all_goals exact h

/-! ### The media side (R65, R72 to R77) -/

theorem not_mem_lines {d : Die} (hd : (s.die d).inTransfer = false) : d ∉ s.media.lines := h.linesLaw.not_mem_lines hd

/-- The transfer that has the lines ends in the busy interval, and no other die changes. -/
theorem execCommandTransferEnd {d : Die} {t : State} (ht : execCommandTransferEnd d s = .next t) : t.SchedulerLaw := by
  cases ht
  split
  · exact h
  · exact h
  next op hop =>
    split
    next hc =>
      have released := h.linesLaw.releaseLines
      refine State.schedulerLaw_iff.2 ⟨released.withDie (h.linesLaw.not_mem_releaseLines hc.2) _, fun e he => ?_⟩
      rw [State.setPhase, State.withDie_die] at he
      split at he
      · cases he
      next hne =>
        have hmem := (h.transfers e).2 he
        obtain ⟨waiting, hl⟩ : ∃ waiting, s.media.lines = d :: waiting := by
          simpa [State.hasLines, List.head?_eq_some_iff] using hc.2
        rw [hl] at hmem
        simpa [State.setPhase, State.releaseLines, hl] using List.mem_of_ne_of_mem hne hmem
    · exact h

theorem execMrdySeenHigh {d : Die} {t : State} (ht : execMrdySeenHigh d s = .next t) : t.SchedulerLaw := by
  cases ht
  split
  · exact h
  · exact h
  next op hop =>
    split
    next hp =>
      have free : d ∉ s.media.lines := h.not_mem_lines (by simp [hop, DieState.inTransfer, hp, Phase.isTransfer])
      have ready (phase : Phase) : (s.setPhase d op phase).handLines.SchedulerLaw :=
        (h.linesLaw.withDie free _).handLines
      split
      · exact ready _
      · exact ready _
      · exact ready _
      · exact h.linesLaw.completeMedia free _ _ _
    all_goals exact h

theorem execReadoutEnd {d : Die} {page : Page} {t : State} (ht : execReadoutEnd d page s = .next t) : t.SchedulerLaw := by
  cases ht
  split
  · exact h
  · exact h
  · split
    next hc =>
      exact (h.linesLaw.releaseLines.withDie (h.linesLaw.not_mem_releaseLines hc.2) _).handLines
    · exact h

theorem execMediaOperationComplete {d : Die} {status : Byte} {t : State}
    (ht : execMediaOperationComplete d status s = .next t) : t.SchedulerLaw := by
  cases ht
  split
  · exact h
  · exact h
  · split
    · split
      next hl => exact h.linesLaw.releaseLines.completeMedia (h.linesLaw.not_mem_releaseLines hl) _ _ _
      · exact h
    all_goals exact h

theorem execDieTimeout {d : Die} {t : State} (ht : execDieTimeout d s = .next t) : t.SchedulerLaw := by
  cases ht
  split
  · exact h
  · exact h
  next op hop =>
    split
    next hp =>
      split
      · have free : d ∉ s.media.lines := h.not_mem_lines (by simp [hop, DieState.inTransfer, hp, Phase.isTransfer])
        exact (h.linesLaw.timeOut free _ _ _).settled
      · exact h
    all_goals exact h

/-! ### The drop timers, the supply, the line reset and the Timebase -/

theorem execSettleTimerExpiry {t : State} (ht : execSettleTimerExpiry s = .next t) : t.SchedulerLaw := by
  cases ht
  split
  · exact (h.linesLaw.of_stores (s.storesKept_closeDrop _)).settled
  · exact h

theorem execCeilingTimerExpiry {t : State} (ht : execCeilingTimerExpiry s = .next t) : t.SchedulerLaw := by
  cases ht
  split
  · have closed := h.linesLaw.of_stores (s.storesKept_closeDrop true)
    exact (closed.of_stores (State.storesKept_suspendFreeFall _ _ _)).settled
  · exact h

theorem execStartUpSettleEnd {t : State} (ht : execStartUpSettleEnd s = .next t) : t.SchedulerLaw := by
  cases ht
  split
  · split
    · exact ((h.linesLaw.withSequence _).request _).settled
    · exact h.linesLaw.stopStartUp.settled
  · exact h

theorem flushFront : s.flushFront.SchedulerLaw := by
  unfold State.flushFront
  dsimp only
  split
  case h_3 => exact h.abandonRead.of_media rfl rfl
  all_goals exact h.of_media rfl rfl

theorem lineFront : s.lineFront.SchedulerLaw := by
  unfold State.lineFront
  dsimp only
  split
  case h_3 => exact h.abandonRead.of_media rfl rfl
  all_goals exact h.of_media rfl rfl

theorem enterFlushing : s.enterFlushing.SchedulerLaw := by
  have begun : s.flushControl.SchedulerLaw := h.of_frame ⟨rfl, rfl, rfl, rfl⟩
  have released := begun.flushFront.detach.linesLaw.restand _ ⟨rfl, rfl, rfl⟩ .disregarded
  exact (released.of_stores (State.storesKept_withDrop _ _)).settled

theorem execSupgoodFall {t : State} (ht : execSupgoodFall s = .next t) : t.SchedulerLaw := by
  have low := h.of_stores (s.storesKept_withPins { s.pins with supgood := false })
  cases ht
  split
  · dsimp only
    split
    · exact low.linesLaw.stopStartUp.settled
    · exact low.enterFlushing
    · exact low.enterFlushing
    · exact low
    · exact low.linesLaw.stopRecovery.settled
  · exact h

theorem execSupgoodRise {t : State} (ht : execSupgoodRise s = .next t) : t.SchedulerLaw := by
  have high := h.of_stores (s.storesKept_withPins { s.pins with supgood := true })
  cases ht
  split
  · exact h
  · dsimp only
    split
    case h_5 => exact high.linesLaw.beginRecovery.settled
    all_goals exact high

theorem execRsvgoodFall {t : State} (ht : execRsvgoodFall s = .next t) : t.SchedulerLaw := by
  have low := h.of_stores (s.storesKept_withPins { s.pins with rsvgood := false })
  cases ht
  split
  · dsimp only
    split
    case h_4 => exact LinesLaw.settled (low.linesLaw.of_frame ⟨rfl, rfl, rfl, rfl⟩)
    all_goals exact low
  · exact h

theorem execRsvgoodRise {t : State} (ht : execRsvgoodRise s = .next t) : t.SchedulerLaw := by
  cases ht
  split
  · exact h
  · exact h.of_stores (s.storesKept_withPins _)

theorem beginLineReset : s.beginLineReset.SchedulerLaw := by
  have marked : (s.lineControl (s.queue.entries.any Entry.withdrawable)).SchedulerLaw :=
    h.of_frame ⟨rfl, rfl, rfl, rfl⟩
  have patient := marked.lineFront.withdraw.detach.linesLaw.mapDies DieRecord.clearPatience_schedulerKept
    (m := Scheduler.clearPatience _) ⟨rfl, rfl, rfl⟩
  unfold State.beginLineReset
  exact (patient.lineProbeNext _).settled

theorem execLrst {t : State} (ht : execLrst s = .next t) : t.SchedulerLaw := by
  cases ht
  split
  case h_1 => exact h.beginLineReset
  all_goals exact h

theorem execTick {t : State} (ht : execTick s = .next t) : t.SchedulerLaw := by
  cases ht
  have advanced := h.mapDies DieRecord.advance_schedulerKept
    (m := { s.media with dies := s.media.dies.map DieRecord.advance }) ⟨rfl, rfl, rfl⟩
  exact advanced.of_frame ⟨rfl, rfl, rfl, rfl⟩

end State.SchedulerLaw

theorem State.SchedulerLaw.powerOn (levels : LineLevels) (free : Nat) (pending : List Instr) :
    (State.powerOn levels free pending).SchedulerLaw where
  limit := defaultProfile_patience
  patience d := by fin_cases d <;> exact Nat.zero_le 8
  failures := Nat.zero_le _
  once := List.nodup_nil
  transfers d := by fin_cases d <;> exact ⟨nofun, nofun⟩

/-! ### The obligation -/

/-- Every command keeps the law. -/
theorem State.SchedulerLaw.exec {c : Instr} {s t : State} (h : s.SchedulerLaw) (ht : exec c s = .next t) :
    t.SchedulerLaw := by
  cases c with
  | powerOn levels => cases ht; exact State.SchedulerLaw.powerOn levels s.free s.pending
  | startUpSettleEnd => exact h.execStartUpSettleEnd ht
  | read => cases ht; exact h.takeOperation .read
  | program => cases ht; exact h.takeOperation .program
  | erase => cases ht; exact h.takeOperation .erase
  | status => exact h.execStatus ht
  | reset => exact h.execReset ht
  | unknownOperationByte byte => exact h.execUnknownOperationByte ht
  | addressByte byte => exact h.execAddressByte ht
  | dataByte byte => exact h.execDataByte ht
  | readStrobe => exact h.execReadStrobe ht
  | endStrobe => exact h.execEnd ht
  | commandTransferEnd die => exact h.execCommandTransferEnd ht
  | mrdySeenHigh die => exact h.execMrdySeenHigh ht
  | readoutEnd die page => exact h.execReadoutEnd ht
  | mediaOperationComplete die status => exact h.execMediaOperationComplete ht
  | dieTimeout die => exact h.execDieTimeout ht
  | ffallRise => exact h.of_stores (storesKept_execFfallRise ht)
  | ffallFall => exact h.of_stores (storesKept_execFfallFall ht)
  | fimpRise => exact h.of_stores (storesKept_execFimpRise ht)
  | fimpFall => exact h.of_stores (storesKept_execFimpFall ht)
  | mergeTimerExpiry => exact h.of_stores (storesKept_execMergeTimerExpiry ht)
  | settleTimerExpiry => exact h.execSettleTimerExpiry ht
  | ceilingTimerExpiry => exact h.execCeilingTimerExpiry ht
  | qpulseRise qdir => cases ht; exact h.of_stores (s.storesKept_withGauge _)
  | tfreqRise => cases ht; exact h.of_stores (s.storesKept_withGauge _)
  | gateEnd => exact h.of_stores (storesKept_execGateEnd ht)
  | minuteBoundary => exact h.of_stores (storesKept_execMinuteBoundary ht)
  | chgdoneRise => cases ht; exact h.of_stores (s.storesKept_takeBatteryEdge .chgdone)
  | pkemptyRise => cases ht; exact h.of_stores (s.storesKept_takeBatteryEdge .pkempty)
  | pkpresFall => exact h.of_stores (storesKept_execPkpresFall ht)
  | pkpresRise => exact h.of_stores (storesKept_execPkpresRise ht)
  | supgoodFall => exact h.execSupgoodFall ht
  | supgoodRise => exact h.execSupgoodRise ht
  | rsvgoodFall => exact h.execRsvgoodFall ht
  | rsvgoodRise => exact h.execRsvgoodRise ht
  | lrst => exact h.execLrst ht
  | tick => exact h.execTick ht

/-- Settles O58: every command keeps the law. While the consequences of an event are taken a transfer may be ready and not
yet wait for the lines, so they keep the weaker `State.LinesLaw`, and `State.LinesLaw.handLines` restores the rest at their
end. The patience counters stay at 8 or below because a front read is granted over a commit only below the drain patience. -/
theorem schedulerLawIsKept : Obligations.SchedulerLawIsKept :=
  fun _ _ h ht => step_keeps (fun _ _ h => h.of_media rfl rfl) (fun _ _ _ h ht => h.exec ht) ht h

end Sys2Proof.Machine
end

section
/-! The pages the part holds (log entry 7): the canonical form through the Service Controller's sequences and the Die
Scheduler's consequences. -/

namespace Sys2Proof.Machine

/-! ### Pages that the part composes (R142, R146) -/

theorem sealNote_canonical (bytes : List Byte) : Page.Canonical (sealNote bytes) :=
  (Page.canonical_nil.writeBytes 0 bytes).writeBytes 96 _

theorem State.composeOpenedNote_canonical (s : State) : Page.Canonical s.composeOpenedNote := by
  unfold State.composeOpenedNote openedNote
  exact sealNote_canonical _

theorem State.composeFlushNote_canonical (s : State) : Page.Canonical s.composeFlushNote := by
  unfold State.composeFlushNote flushNote
  exact sealNote_canonical _

/-! ### Dies and entries that change without a page -/

theorem DieRecord.restand_pagesLawful {r : DieRecord} (standing : Standing) (h : r.state.PagesLawful) :
    (r.restand standing).state.PagesLawful := by
  unfold DieRecord.restand
  split
  · exact h
  · exact h
  next op hop =>
    split
    · exact h
    · exact h
    next request hrequest =>
      rw [hop] at h
      obtain ⟨himage, hphase, hrequester⟩ := h
      rw [hrequest] at hrequester
      exact ⟨himage, hphase, by rw [Requester.PagesLawful, ServiceRequest.restand_eq]; split <;> exact hrequester⟩

theorem DieRecord.abandon_pagesLawful {r : DieRecord} (h : r.state.PagesLawful) : r.abandon.state.PagesLawful := by
  unfold DieRecord.abandon
  split
  · exact h
  · exact h
  next op hop =>
    split
    · rw [hop] at h
      obtain ⟨himage, hphase, -⟩ := h
      exact ⟨himage, hphase, trivial⟩
    · exact h
    · exact h

theorem Phase.advance_pagesLawful {p : Phase} (h : p.PagesLawful) : p.advance.PagesLawful := by
  cases p with
  | busy start timeoutMs elapsed => trivial
  | command => exact h
  | readout => exact h
  | status data => exact h

theorem DieRecord.advance_pagesLawful {r : DieRecord} (h : r.state.PagesLawful) : r.advance.state.PagesLawful := by
  unfold DieRecord.advance
  split
  · exact h
  · exact h
  next op hop =>
    rw [hop] at h
    obtain ⟨himage, hphase, hrequester⟩ := h
    exact ⟨himage, Phase.advance_pagesLawful hphase, hrequester⟩

theorem detachEntry_image (e : Entry) : (detachEntry e).image = e.image := by
  unfold detachEntry
  split
  · rfl
  · rfl

/-! ### What a scan keeps, and what a result brings -/

/-- The page a scan keeps as its latest is in canonical form. -/
def BestCanonical (best : Option (Nat × Page)) : Prop := ∀ x, best = some x → Page.Canonical x.2

theorem bestCanonical_none : BestCanonical none := nofun

theorem bestCanonical_some {page : Nat} {data : Page} (h : Page.Canonical data) : BestCanonical (some (page, data)) := by
  rintro _ ⟨⟩
  exact h

/-- The bytes that a READ gave are in canonical form. -/
def MediaResult.PagesLawful (r : MediaResult) : Prop := ∀ data, r = .pass data → Page.Canonical data

theorem MediaResult.pagesLawful_pass {data : Page} (h : Page.Canonical data) : (MediaResult.pass data).PagesLawful := by
  rintro _ ⟨⟩
  exact h

theorem MediaResult.pagesLawful_fail (cause : FailCause) : (MediaResult.fail cause).PagesLawful := nofun

theorem statusResult_pagesLawful {data : Page} (status : Byte) (h : Page.Canonical data) :
    (statusResult status data).PagesLawful := by
  unfold statusResult
  split
  · exact MediaResult.pagesLawful_fail _
  · exact MediaResult.pagesLawful_pass h

namespace State.PageLaw

variable {s : State} (h : s.PageLaw)
include h

/-! ### Updates of one block -/

/-- The law speaks of the reserved slot, the entries, a consumption write, the waiting requests, the dies and the sequence
alone. -/
theorem of_frame {t : State}
    (ht : t.queue.reserved = s.queue.reserved ∧ t.queue.entries = s.queue.entries ∧
      t.report.consumption = s.report.consumption ∧ t.media.services = s.media.services ∧ t.media.dies = s.media.dies ∧
      t.control.sequence = s.control.sequence) : t.PageLaw := by
  obtain ⟨hr, he, hc, hs, hd, hq⟩ := ht
  refine ⟨hr ▸ h.reserved, he ▸ h.entries, hc ▸ h.consumption, hs ▸ h.services, ?_, hq ▸ h.sequence⟩
  unfold State.die
  rw [hd]
  exact h.dies

theorem of_stores {t : State} (ht : s.StoresKept t) : t.PageLaw :=
  h.of_frame (by rw [ht.queue, ht.media, ht.control]; exact ⟨rfl, rfl, ht.consumption, rfl, rfl, rfl⟩)

theorem withFront (f : FrontPort) : (s.withFront f).PageLaw := h.of_frame ⟨rfl, rfl, rfl, rfl, rfl, rfl⟩

theorem withFrontState (f : FrontState) : (s.withFrontState f).PageLaw := h.withFront _

theorem withQueue {q : HoldQueue} (hr : ∀ p, q.reserved = some p → Page.Canonical p)
    (he : ∀ e ∈ q.entries, Page.Canonical e.image) : (s.withQueue q).PageLaw :=
  { h with reserved := hr, entries := he }

/-- The entries change, the reserved slot does not. -/
theorem withEntries {l : List Entry} (hl : ∀ e ∈ l, Page.Canonical e.image) :
    (s.withQueue { s.queue with entries := l }).PageLaw :=
  h.withQueue h.reserved hl

theorem withReport {r : ReportMemory} (hr : r.consumption = s.report.consumption) : (s.withReport r).PageLaw :=
  h.of_frame ⟨rfl, rfl, hr, rfl, rfl, rfl⟩

theorem withControl {c : Controller} (hc : c.sequence = s.control.sequence) : (s.withControl c).PageLaw :=
  h.of_frame ⟨rfl, rfl, rfl, rfl, rfl, hc⟩

theorem withSequence {q : Sequence} (hq : q.PagesLawful) : (s.withSequence q).PageLaw := { h with sequence := hq }

theorem withDie {d : Die} {x : DieState} (hx : x.PagesLawful) : (s.withDie d x).PageLaw where
  reserved := h.reserved
  entries := h.entries
  consumption := h.consumption
  services := h.services
  sequence := h.sequence
  dies e := by
    rw [State.withDie_die]
    split
    · exact hx
    · exact h.dies e

theorem withPatience (d : Die) (n : Nat) : (s.withPatience d n).PageLaw where
  reserved := h.reserved
  entries := h.entries
  consumption := h.consumption
  services := h.services
  sequence := h.sequence
  dies e := by
    rw [State.withPatience_die]
    exact h.dies e

theorem withMedia {m : Scheduler} (hs : ∀ r ∈ m.services, r.op.PagesLawful)
    (hd : ∀ d, (m.dies.get d).state.PagesLawful) : (s.withMedia m).PageLaw :=
  { h with services := hs, dies := hd }

/-- Requests that waited leave, and no die changes. -/
theorem withFewerServices {m : Scheduler} (hs : ∀ r ∈ m.services, r ∈ s.media.services) (hd : m.dies = s.media.dies) :
    (s.withMedia m).PageLaw :=
  h.withMedia (fun r hr => h.services r (hs r hr)) (by rw [hd]; exact h.dies)

theorem mapDies {f : DieRecord → DieRecord} (hf : ∀ r, r.state.PagesLawful → (f r).state.PagesLawful) {m : Scheduler}
    (hm : m.dies = s.media.dies.map f) (hs : ∀ r ∈ m.services, r.op.PagesLawful) : (s.withMedia m).PageLaw :=
  h.withMedia hs fun d => by
    rw [hm, PerDie.get_map]
    exact hf _ (h.dies d)

theorem record (p : Payload) : (s.record p).PageLaw := h.of_stores (s.storesKept_record p)

theorem request {op : ServiceOp} (hop : op.PagesLawful) : (s.request op).PageLaw :=
  h.withMedia (List.forall_mem_append.2 ⟨h.services, List.forall_mem_singleton.2 hop⟩) h.dies

/-- A sequence takes its next step and makes the request it awaits there. -/
theorem asking {q : Sequence} {op : ServiceOp} (hq : q.PagesLawful) (hop : op.PagesLawful) :
    ((s.withSequence q).request op).PageLaw :=
  PageLaw.request (h.withSequence hq) hop

theorem withdrawNotes : (s.withMedia s.media.withdrawNotes).PageLaw :=
  h.withFewerServices (fun _ => List.mem_of_mem_filter) rfl

theorem restand (standing : Standing) : (s.withMedia (s.media.restand standing)).PageLaw := by
  refine h.mapDies (fun _ => DieRecord.restand_pagesLawful standing) rfl fun r hr => ?_
  obtain ⟨r, hmem, rfl⟩ := List.mem_map.1 hr
  rw [ServiceRequest.restand_eq]
  split
  · exact h.services r hmem
  · exact h.services r hmem

/-! ### Applies (R174, R175, R181): they change settings, the gauge and records -/

theorem laterApply (p : ProfileImage) (page : Option Nat) : (s.laterApply p page).1.PageLaw :=
  h.of_frame ⟨rfl, rfl, rfl, rfl, rfl, rfl⟩

theorem wholeApply (p : ProfileImage) (page : Option Nat) (g : Gauge) : (s.wholeApply p page g).1.PageLaw :=
  h.of_frame ⟨rfl, rfl, rfl, rfl, rfl, rfl⟩

theorem serviceApply (image : Page) (page : Nat) : (s.serviceApply image page).PageLaw := by
  unfold State.serviceApply
  split
  · exact h.record _
  · exact (h.laterApply _ _).record _

theorem applyAtStartUp (r : ScanResult) : (s.applyAtStartUp r).PageLaw := by
  have applied (p : ProfileImage) (page : Option Nat) : (s.startUpApply p page).1.PageLaw := h.wholeApply p page _
  unfold State.applyAtStartUp
  split
  · split
    · exact (applied _ _).record _
    · exact (applied _ _).record _
  · exact (applied _ _).record _
  · exact (applied _ _).record _

theorem applyAtLineReset (r : ScanResult) : (s.applyAtLineReset r).PageLaw := by
  unfold State.applyAtLineReset
  split
  · split
    · exact h.record _
    · exact (h.laterApply _ _).record _
  · exact (h.laterApply _ _).record _
  · exact h.record _

/-! ### The OPENED note and the scans (R145, R170 to R177, R183) -/

theorem openNote (o : Opening) : (s.openNote o).PageLaw := by
  unfold State.openNote
  split
  · exact h.asking trivial trivial
  · exact h.asking trivial trivial

theorem enterService : s.enterService.PageLaw := (h.withSequence (q := .none) trivial).withControl rfl

theorem finishOpening (o : Opening) : (s.finishOpening o).PageLaw := by
  cases o with
  | startUp info => exact PageLaw.enterService (h.record _)
  | dipRecovery => exact PageLaw.enterService (PageLaw.withFront (h.record _) _)

theorem openOrFinish (o : Opening) : (s.openOrFinish o).PageLaw := by
  unfold State.openOrFinish
  split
  · exact h.openNote o
  · exact h.finishOpening o

theorem addFailedRow (r : FailedRow) : (s.addFailedRow r).1.PageLaw := h.of_frame ⟨rfl, rfl, rfl, rfl, rfl, rfl⟩

theorem loadRows (rows : List FailedRow) : (s.loadRows rows).PageLaw := by
  unfold State.loadRows
  induction rows generalizing s with
  | nil => exact h
  | cons r rows ih => exact ih (h.addFailedRow r)

theorem endGaugeHold : s.endGaugeHold.PageLaw := h.of_stores s.storesKept_endGaugeHold

theorem loadCounters (dropBase sequenceBase : Tick) : (s.loadCounters dropBase sequenceBase).PageLaw :=
  h.of_stores (s.storesKept_loadCounters dropBase sequenceBase)

theorem cleanStart (page : Nat) (image : Page) : (s.cleanStart page image).PageLaw := by
  have loaded := h.loadCounters (noteDropCounter image) (noteSequence image)
  unfold State.cleanStart
  refine PageLaw.openOrFinish (PageLaw.withControl (PageLaw.loadRows (PageLaw.endGaugeHold ?_) _) ?_) _
  · exact loaded.of_stores (State.storesKept_withGauge _ _)
  · rfl

theorem settleNote (best : Option (Nat × Page)) : (s.settleNote best).PageLaw := by
  unfold State.settleNote
  split
  · exact (h.loadCounters 0 0).endGaugeHold.openOrFinish _
  · split
    · exact h.cleanStart _ _
    · exact (h.loadCounters _ _).endGaugeHold.openOrFinish _

theorem loseNote : s.loseNote.PageLaw := h.withControl rfl

theorem beginNoteScan : s.beginNoteScan.PageLaw := by
  unfold State.beginNoteScan
  split
  · exact h.asking bestCanonical_none trivial
  · exact h.loseNote.settleNote none

theorem noteScanned (page : Nat) {best : Option (Nat × Page)} {data : Page} (hb : BestCanonical best)
    (hd : Page.Canonical data) : (s.noteScanned page best data).PageLaw := by
  have placed (n : Nat) : (s.withControl { s.control with nextNotePage := some n }).PageLaw := h.withControl rfl
  unfold State.noteScanned
  split
  · exact (placed page).settleNote best
  · have latest : BestCanonical (if notePageOk data then some (page, data) else best) :=
      iteInduction (motive := BestCanonical) (fun _ => bestCanonical_some hd) (fun _ => hb)
    dsimp only
    split
    · exact (placed 128).settleNote _
    · exact h.asking latest trivial

theorem probeNext (dies : List Die) : (s.probeNext dies).PageLaw := by
  cases dies with
  | nil => exact h.beginNoteScan
  | cons d rest => exact h.asking trivial trivial

theorem scanEnded (purpose : ScanFor) (result : ScanResult) : (s.scanEnded purpose result).PageLaw := by
  cases purpose with
  | startUp => exact (h.applyAtStartUp result).probeNext _
  | lineReset => exact PageLaw.enterService ((h.applyAtLineReset result).record _)

theorem beginScan (purpose : ScanFor) : (s.beginScan purpose).PageLaw := by
  unfold State.beginScan
  exact iteInduction (motive := State.PageLaw)
    (fun _ => h.asking bestCanonical_none trivial)
    (fun _ => h.scanEnded purpose .unread)

theorem scanOn (purpose : ScanFor) (page : Nat) {best : Option (Nat × Page)} (failed : Nat) (hb : BestCanonical best) :
    (s.scanOn purpose page best failed).PageLaw := by
  unfold State.scanOn
  split
  · exact h.scanEnded purpose _
  · exact h.asking hb trivial

theorem profileScanned (purpose : ScanFor) (page : Nat) {best : Option (Nat × Page)} (failed : Nat) {data : Page}
    (hb : BestCanonical best) (hd : Page.Canonical data) : (s.profileScanned purpose page best failed data).PageLaw := by
  unfold State.profileScanned
  split
  · exact h.scanEnded purpose _
  · split
    · exact h.scanOn purpose page 0 (bestCanonical_some hd)
    · exact h.scanOn purpose page (failed + 1) hb

theorem lineProbeNext (dies : List Die) : (s.lineProbeNext dies).PageLaw := by
  cases dies with
  | nil => exact h.withSequence (q := .lineWait) trivial
  | cons d rest => exact h.asking trivial trivial

/-! ### Dip recovery, SPENT and the flush (R132 to R149) -/

theorem beginRecovery : s.beginRecovery.PageLaw := by
  have counted : s.recoverCounters.PageLaw := by
    unfold State.recoverCounters
    split
    · exact h
    · exact h.loadCounters 0 0
  have settings : s.recoverCounters.recoverSettings.PageLaw := by
    unfold State.recoverSettings
    split
    · exact counted.wholeApply _ _ _
    · exact counted
  have reported : s.recoverCounters.recoverSettings.recoverDrops.PageLaw :=
    settings.of_stores ((State.storesKept_withDrop _ _).trans (State.storesKept_reportDrops _))
  exact reported.openOrFinish .dipRecovery

theorem enterSpent : s.enterSpent.PageLaw := by
  have spent : ((s.withSequence .none).withServiceState .spent).PageLaw :=
    (h.withSequence (q := .none) trivial).withControl rfl
  unfold State.enterSpent
  dsimp only
  split
  · exact spent.beginRecovery
  · exact spent

theorem stopStartUp : s.stopStartUp.PageLaw := by
  have withdrawn := h.withdrawNotes.restand .disregarded
  unfold State.stopStartUp
  exact PageLaw.enterSpent (PageLaw.endGaugeHold (withdrawn.withControl rfl))

theorem stopRecovery : s.stopRecovery.PageLaw :=
  (h.withdrawNotes.restand .noteOnly).withSequence (q := .none) trivial

theorem endFlush (outcome : FlushNoteOutcome) : (s.endFlush outcome).PageLaw :=
  PageLaw.enterSpent (h.withControl rfl)

theorem reportUnwritten (e : Entry) (cause : CommitFailCause) (way : Departure) :
    (s.reportUnwritten e cause way).PageLaw :=
  ((h.addFailedRow _).record _).of_stores (State.storesKept_dropDeparted _ _ _)

theorem loseEntries : s.loseEntries.PageLaw := by
  have lost (l : List Entry) {s : State} (h : s.PageLaw) :
      (l.foldl (fun acc e => acc.reportUnwritten e .lost .lost) s).PageLaw := by
    induction l generalizing s with
    | nil => exact h
    | cons e l ih => exact ih (h.reportUnwritten e .lost .lost)
  have empty : (s.withQueue { s.queue with entries := [] }).PageLaw := h.withEntries (by simp)
  unfold State.loseEntries
  exact lost _ (empty.of_frame ⟨rfl, rfl, rfl, rfl, rfl, rfl⟩)

theorem endDrain : s.endDrain.PageLaw := by
  unfold State.endDrain
  dsimp only
  split
  · exact h.loseEntries.asking trivial (State.composeFlushNote_canonical _)
  · exact h.loseEntries.endFlush _

/-! ### Results of service operations (R72, R143, R148) -/

theorem noteWritten (op : ServiceOp) (r : MediaResult) : (s.noteWritten op r).PageLaw := by
  unfold State.noteWritten
  split
  · exact h.loseNote
  · split
    · exact h.withControl rfl
    all_goals exact h

theorem oldNoteWritten (op : ServiceOp) (r : MediaResult) : (s.oldNoteWritten op r).PageLaw := by
  have noted := h.noteWritten op r
  unfold State.oldNoteWritten
  dsimp only
  split
  case h_1 | h_2 =>
    split
    · exact noted
    · exact noted.withdrawNotes.finishOpening _
  all_goals exact noted

theorem sequenceResult (op : ServiceOp) {r : MediaResult} (hr : r.PagesLawful) : (s.sequenceResult op r).PageLaw := by
  have kept := h.sequence
  unfold State.sequenceResult
  split
  next => exact h
  next => exact h
  next => exact h.beginScan .startUp
  next hq =>
    rw [hq] at kept
    split
    · exact h.profileScanned _ _ _ kept (hr _ rfl)
    · exact h.scanOn _ _ _ kept
    · exact h.scanEnded _ _
    · exact h.scanEnded _ _
  next => exact h.probeNext _
  next hq =>
    rw [hq] at kept
    split
    · exact h.noteScanned _ kept (hr _ rfl)
    · exact h.loseNote.settleNote _
  next => exact (h.noteWritten op r).openOrFinish _
  next => exact (h.noteWritten op r).finishOpening _
  next => exact h.lineProbeNext _
  next => exact h
  next => exact h
  next => exact (h.noteWritten op r).endFlush _

theorem serviceDone (request : ServiceRequest) {r : MediaResult} (hr : r.PagesLawful) :
    (s.serviceDone request r).PageLaw := by
  unfold State.serviceDone
  split
  · exact h.sequenceResult _ hr
  · exact h.oldNoteWritten _ _
  · exact h

/-! ### Grants (R49, R66, R67) -/

theorem startMedia (d : Die) (kind : MediaKind) (row : Option Nat) {image : Page} {requester : Requester}
    (hi : Page.Canonical image) (hr : requester.PagesLawful) : (s.startMedia d kind row image requester).PageLaw :=
  h.withDie ⟨hi, trivial, hr⟩

theorem startFront (d : Die) (row : Nat) : (s.startFront d row).PageLaw := by
  have taken : (s.withMedia { s.media with frontRead := none }).PageLaw := h.withFewerServices (fun _ => id) rfl
  exact taken.startMedia d .read (some row) Page.canonical_nil trivial

theorem spendUnit : s.spendUnit.PageLaw := by
  unfold State.spendUnit
  split
  · exact h.withControl rfl
  · exact h

/-- A commit sends the image of an entry of the queue. -/
theorem startCommit (d : Die) {e : Entry} (he : e ∈ s.queue.entries) : (s.startCommit d e).PageLaw := by
  have marked : (s.withQueue { s.queue with entries := updateOldest d commitEntry s.queue.entries }).PageLaw := by
    refine h.withEntries fun x hx => ?_
    rcases mem_updateOldest hx with hx | ⟨y, hy, rfl⟩
    · exact h.entries x hx
    · exact h.entries y hy
  exact (marked.spendUnit.withPatience d 0).startMedia d _ _ (h.entries e he) trivial

theorem takeRequest (r : ServiceRequest) : (s.takeRequest r).PageLaw :=
  h.withFewerServices (fun _ => List.mem_of_mem_erase) rfl

theorem startService (d : Die) {r : ServiceRequest} (hr : r ∈ s.media.services) : (s.startService d r).PageLaw := by
  have asked := h.services r hr
  have started (kind : MediaKind) (row : Option Nat) {image : Page} (hi : Page.Canonical image) :
      ((s.takeRequest r).startMedia d kind row image (.service r)).PageLaw :=
    (h.takeRequest r).startMedia d kind row hi asked
  unfold State.startService
  dsimp only
  split
  · exact started _ _ Page.canonical_nil
  · exact started _ _ Page.canonical_nil
  · exact started _ _ Page.canonical_nil
  · exact started _ _ Page.canonical_nil
  · exact (started .program _ s.composeOpenedNote_canonical).withControl rfl
  next image hop =>
    rw [hop] at asked
    split
    · exact (h.takeRequest r).endFlush _
    · exact PageLaw.spendUnit ((started .program _ asked).withControl rfl)

/-! ### Results (R27, R50, R51, R72) -/

theorem countFailure : s.countFailure.PageLaw := h.withFewerServices (fun _ => id) rfl

theorem frontReadDone (base : Page) (failed : Bool) : (s.frontReadDone base failed).PageLaw := by
  unfold State.frontReadDone
  split
  · exact h.withFront _
  all_goals exact h

theorem releaseFront (e : Entry) (passed : Bool) : (s.releaseFront e passed).PageLaw := by
  unfold State.releaseFront
  split
  · exact h
  · exact h.withFront _
  · split
    · exact h.withFrontState _
    · exact h

theorem dropDeparted (tag : Option Tick) (way : Departure) : (s.dropDeparted tag way).PageLaw :=
  h.of_stores (s.storesKept_dropDeparted tag way)

theorem applyCommitted (e : Entry) : (s.applyCommitted e).PageLaw := by
  unfold State.applyCommitted
  split
  · exact h.serviceApply _ _
  · exact h

theorem countLeaving (passed : Bool) : (s.countLeaving passed).PageLaw := h.of_frame (by simp)

theorem afterPass (e : Entry) : (s.afterPass e).PageLaw := by
  have chosen : (s.withFree (s.free + 1)).PageLaw := h.of_frame ⟨rfl, rfl, rfl, rfl, rfl, rfl⟩
  unfold State.afterPass
  dsimp only
  split
  · split
    · exact (chosen.dropDeparted _ _).applyCommitted e
    · exact (chosen.applyCommitted e).dropDeparted _ _
  · exact (h.dropDeparted _ _).applyCommitted e

theorem commitDone (d : Die) (r : MediaResult) : (s.commitDone d r).PageLaw := by
  have left : (s.withQueue { s.queue with entries := removeOldest d s.queue.entries }).PageLaw :=
    h.withEntries fun e he => h.entries e (mem_removeOldest he)
  unfold State.commitDone
  split
  · exact h
  next e _ =>
    dsimp only
    split
    · have cleared := left.withQueue (q := { s.queue with
          entries := removeOldest d s.queue.entries, failedRows := clearFailed s.queue.failedRows e })
        left.reserved left.entries
      exact ((cleared.countLeaving true).releaseFront e true).afterPass e
    · have released := (left.countLeaving false).releaseFront e false
      unfold State.failCommit
      dsimp only
      split
      · exact released.dropDeparted _ _
      · exact released.reportUnwritten _ _ _

theorem handResult (d : Die) (requester : Requester) {r : MediaResult} (hr : r.PagesLawful) (data : Page) :
    (s.handResult d requester r data).PageLaw := by
  unfold State.handResult
  split
  · exact h
  · exact h.frontReadDone _ _
  · exact h.commitDone _ _
  · exact h.serviceDone _ hr

/-! ### The consequences of an event (R67, R75, R77) -/

theorem micro {t : State} (ht : s.micro = some t) : t.PageLaw := by
  have nothing : (MediaResult.pass []).PagesLawful := MediaResult.pagesLawful_pass Page.canonical_nil
  refine State.micro_keeps (P := State.PageLaw) ?free ?service ?front ?commit ?probe ?pass ?fail ?failFront ?failCommit
    ?scan ?drain s t h ht
  case free => exact fun s n hs => hs.of_frame ⟨rfl, rfl, rfl, rfl, rfl, rfl⟩
  case service => exact fun s d r hs _ hr _ _ _ => hs.startService d hr
  case front =>
    intro s d row contested hs _ _ _ _
    unfold State.perform
    dsimp only
    split
    · exact (hs.withPatience d _).startFront d row
    · exact hs.startFront d row
  case commit =>
    intro s d e hs _ ho _
    obtain ⟨-, holdest, -⟩ := State.offer_some ho
    exact hs.startCommit d (HoldQueue.oldest_some holdest).1
  case probe => exact fun s r hs hr _ _ => hs.startService _ hr
  case pass => exact fun s r hs _ _ _ => (hs.takeRequest r).serviceDone r nothing
  case fail => exact fun s r hs _ _ _ => (hs.takeRequest r).countFailure.serviceDone r (MediaResult.pagesLawful_fail _)
  case failFront =>
    intro s d row hs _ _ _
    have taken : (s.withMedia { s.media with frontRead := none }).PageLaw := hs.withFewerServices (fun _ => id) rfl
    exact taken.countFailure.frontReadDone [] true
  case failCommit => exact fun s d e hs _ _ => hs.countFailure.commitDone d _
  case scan => exact fun s hs _ _ => hs.beginScan .lineReset
  case drain => exact fun s hs _ _ => hs.endDrain

theorem handLines : s.handLines.PageLaw := h.withFewerServices (fun _ => id) rfl

theorem settled : s.settled.PageLaw :=
  State.settled_keeps (fun _ _ hs ht => hs.micro ht) (fun _ hs => hs.handLines) s h

end State.PageLaw

end Sys2Proof.Machine
end

section
/-! The pages the part holds (log entry 7): every command keeps them in canonical form. -/

namespace Sys2Proof.Machine

theorem ReportMemory.release_consumption (r : ReportMemory) (mask : BitVec 16) (through : Tick) :
    (r.release mask through).consumption = r.consumption := rfl

theorem ReportMemory.refuse_consumption (r : ReportMemory) (mask : BitVec 16) (cause : RecordedCause) (op : OpKind)
    (row : BitVec 24) (absolute : Bool) (stamp : Tick) :
    (r.refuse mask cause op row absolute stamp).consumption = r.consumption := by
  unfold ReportMemory.refuse
  split
  · simp
  · rfl

/-- A page that is taken into a slot after a byte has been written to it is canonical where the slot's page was. -/
theorem map_writePage_canonical {slot : Option Page} (h : ∀ p, slot = some p → Page.Canonical p) (next : Nat)
    (byte : Byte) : ∀ p, slot.map (fun p => writePage p next byte) = some p → Page.Canonical p := by
  intro p hp
  obtain ⟨image, himage, rfl⟩ := Option.map_eq_some_iff.1 hp
  exact (h image himage).writePage next byte

namespace State.PageLaw

variable {s : State} (h : s.PageLaw)
include h

/-! ### The front store bus (R19 to R37) -/

theorem withReserved {slot : Option Page} (hr : ∀ p, slot = some p → Page.Canonical p) :
    (s.withQueue { s.queue with reserved := slot }).PageLaw :=
  h.withQueue hr h.entries

theorem withConsumption {slot : Option Page} (hc : ∀ p, slot = some p → Page.Canonical p) :
    (s.withReport { s.report with consumption := slot }).PageLaw :=
  { h with consumption := hc }

theorem dropReceiving : s.dropReceiving.PageLaw :=
  ((h.withReserved (slot := none) nofun).withConsumption (slot := none) nofun).withFrontState _

theorem endTransaction : s.endTransaction.PageLaw := by
  unfold State.endTransaction
  split
  · exact h
  · exact h.withFrontState _
  · exact h.withFrontState _
  · exact h.dropReceiving
  · exact h
  · exact h

theorem takeOperation (kind : OpKind) : (s.takeOperation kind).PageLaw := by
  have taken : s.deselect.PageLaw := h.withFront _
  unfold State.takeOperation
  dsimp only
  split
  · exact h
  split
  · exact taken.withFront _
  split
  · exact taken.withFront _
  · exact taken.endTransaction.withFrontState _

theorem abandonRead : s.abandonRead.PageLaw := h.mapDies (fun _ => DieRecord.abandon_pagesLawful) rfl h.services

theorem withdraw : s.withdraw.PageLaw := by
  unfold State.withdraw
  split
  · exact h
  · have left : (s.withQueue
        { s.queue with entries := s.queue.entries.filter (fun x => !x.withdrawable) }).PageLaw :=
      h.withEntries fun e he => h.entries e (List.mem_of_mem_filter he)
    exact left.dropDeparted _ _

theorem detach : (s.withQueue s.queue.detach).PageLaw := by
  refine h.withEntries fun e he => ?_
  obtain ⟨x, hx, rfl⟩ := List.mem_map.1 he
  rw [detachEntry_image]
  exact h.entries x hx

theorem resetOperation : s.resetOperation.PageLaw := by
  unfold State.resetOperation
  split
  · exact h
  · exact h.endTransaction
  · exact h.abandonRead.withFrontState _
  · exact h.endTransaction
  · exact h.endTransaction
  · unfold State.resetAwaiting
    split
    · exact h.withdraw.withFrontState _
    · exact h.detach

theorem execStatus {t : State} (ht : execStatus s = .next t) : t.PageLaw := by
  cases ht
  split
  · exact h
  split
  · exact h.withFront _
  · exact h.endTransaction.withFront _

theorem execReset {t : State} (ht : execReset s = .next t) : t.PageLaw := by
  cases ht
  split
  · exact h
  split
  · exact PageLaw.withFront (h.withFront _) _
  · exact h.resetOperation.withFront _

theorem execUnknownOperationByte {byte : Byte} {t : State} (ht : execUnknownOperationByte byte s = .next t) :
    t.PageLaw := by
  unfold Machine.execUnknownOperationByte at ht
  split at ht
  · cases ht
    exact h
  · cases ht
    exact h.takeOperation .read
  · cases ht
    exact h.takeOperation .program
  · cases ht
    exact h.takeOperation .erase
  · exact h.execStatus ht
  · exact h.execReset ht

/-! ### The address phase and the data (R27 to R31) -/

theorem refuse (cause : RefusalCause) (op : OpKind) (row : BitVec 24) (absolute : Bool) :
    (s.refuse cause op row absolute).PageLaw := by
  have counted : (s.withFront (s.front.refuse cause)).PageLaw := h.withFront _
  unfold State.refuse
  dsimp only
  split
  · exact counted
  · exact counted.withReport (ReportMemory.refuse_consumption _ _ _ _ _ _ _)

theorem snoop (row column : Nat) : (s.snoop row column).PageLaw := by
  unfold State.snoop
  split
  · exact h.withFront _
  · have requested : (s.withMedia { s.media with frontRead := some row }).PageLaw :=
      h.withFewerServices (fun _ => id) rfl
    exact (requested.withFrontState _).settled

theorem receive (op : Translated) : (s.receive op).PageLaw := by
  have blank : ∀ p, some ([] : Page) = some p → Page.Canonical p := by
    rintro _ ⟨⟩
    exact Page.canonical_nil
  unfold State.receive
  split
  · exact (h.withConsumption blank).withFrontState _
  all_goals exact (h.withReserved blank).withFrontState _

theorem route (op : Translated) : (s.route op).PageLaw := by
  have passed : s.clearRefused.PageLaw := h.withFront _
  unfold State.route
  dsimp only
  split
  · split
    · exact passed.snoop _ _
    · exact passed.withFront _
    · exact passed.snoop _ _
    · exact passed.snoop _ _
  · exact passed.receive op
  · exact passed.receive op

theorem execAddressByte {byte : Byte} {t : State} (ht : execAddressByte byte s = .next t) : t.PageLaw := by
  cases ht
  split
  · exact h
  split
  · unfold State.endAddress
    split
    · exact (h.withFrontState _).refuse _ _ _ _
    · exact h.route _
  · exact h.withFrontState _
  all_goals exact h

theorem takeData (op : Translated) (next : Nat) (byte : Byte) : (s.takeData op next byte).PageLaw := by
  have moved (n : Nat) : (s.withFrontState (.receiving op n)).PageLaw := h.withFrontState _
  unfold State.takeData
  dsimp only
  split
  · exact (moved _).withConsumption (map_writePage_canonical h.consumption next byte)
  all_goals exact (moved _).withReserved (map_writePage_canonical h.reserved next byte)

theorem execDataByte {byte : Byte} {t : State} (ht : execDataByte byte s = .next t) : t.PageLaw := by
  cases ht
  split
  · exact h
  split
  · split
    · exact h.takeData _ _ _
    · exact h
  all_goals exact h

theorem execReadStrobe {t : State} (ht : execReadStrobe s = .next t) : t.PageLaw := by
  cases ht
  split
  · exact h.withFront _
  split
  · exact h.withFront _
  · exact PageLaw.withFrontState (h.withFront _) _
  all_goals exact h.withFront _

/-- A PROGRAM's entry takes the page of the reserved slot, an ERASE's none. -/
theorem formEntry (op : Translated) (row : Nat) : Page.Canonical (s.formEntry op row).image := by
  unfold State.formEntry
  dsimp only
  split
  · cases hr : s.queue.reserved with
    | none => exact Page.canonical_nil
    | some p => exact h.reserved p hr
  · exact Page.canonical_nil

theorem accept (op : Translated) (row : Nat) : (s.accept op row).PageLaw := by
  have queued : (s.withQueue
      { s.queue with entries := s.queue.entries ++ [s.formEntry op row], reserved := none }).PageLaw :=
    h.withQueue nofun (List.forall_mem_append.2 ⟨h.entries, List.forall_mem_singleton.2 (h.formEntry op row)⟩)
  exact queued.of_frame (by simp [State.accept])

theorem endConsumption : s.endConsumption.PageLaw := by
  have ended : ((s.withReport { s.report with consumption := none }).withFrontState .idle).PageLaw :=
    (h.withConsumption (slot := none) nofun).withFrontState _
  unfold State.endConsumption
  dsimp only
  split
  · exact PageLaw.withReport (ended.withFront _) (ReportMemory.release_consumption _ _ _)
  · exact ended.refuse _ _ _ _

theorem execEnd {t : State} (ht : execEnd s = .next t) : t.PageLaw := by
  have accepted (op : Translated) (row : Nat) : (s.accept op row).offerAnew.PageLaw := by
    unfold State.offerAnew
    split
    · exact (h.accept op row).settled
    · exact h.accept op row
  cases ht
  split
  · exact h
  split
  · split
    · exact h.endConsumption
    · exact accepted _ _
    · exact accepted _ _
    · exact accepted _ _
  all_goals exact h

/-! ### The media side (R65, R72 to R77) -/

theorem busy {d : Die} {op : MediaOp} (hd : s.die d = .busy op) : (DieState.busy op).PagesLawful := hd ▸ h.dies d

theorem releaseLines : s.releaseLines.PageLaw := h.withFewerServices (fun _ => id) rfl

/-- An operation that goes on in another phase keeps its image and its requester. -/
theorem setPhase {d : Die} {op : MediaOp} (hop : (DieState.busy op).PagesLawful) {phase : Phase}
    (hp : phase.PagesLawful) : (s.setPhase d op phase).PageLaw := by
  obtain ⟨himage, -, hrequester⟩ := hop
  exact h.withDie ⟨himage, hp, hrequester⟩

theorem completeMedia (d : Die) (op : MediaOp) {r : MediaResult} (hr : r.PagesLawful) (data : Page) :
    (s.completeMedia d op r data).PageLaw := by
  have freed : (s.withDie d .idle).PageLaw := h.withDie trivial
  unfold State.completeMedia
  refine PageLaw.settled (PageLaw.handResult ?_ _ _ hr _)
  split
  · exact freed
  · exact freed.countFailure

theorem timeOut (d : Die) (op : MediaOp) (start : Tick) (timeoutMs : Nat) : (s.timeOut d op start timeoutMs).PageLaw := by
  have off : (s.withDie d .offline).PageLaw := h.withDie trivial
  have failed := MediaResult.pagesLawful_fail .timeout
  unfold State.timeOut
  split
  · exact PageLaw.handResult (off.record _) _ _ failed _
  all_goals exact PageLaw.record (off.countFailure.handResult _ _ failed _) _

theorem execCommandTransferEnd {d : Die} {t : State} (ht : execCommandTransferEnd d s = .next t) : t.PageLaw := by
  cases ht
  split
  · exact h
  · exact h
  next op hop =>
    split
    · exact h.releaseLines.setPhase (h.busy hop) trivial
    · exact h

theorem execMrdySeenHigh {d : Die} {t : State} (ht : execMrdySeenHigh d s = .next t) : t.PageLaw := by
  cases ht
  split
  · exact h
  · exact h
  next op hop =>
    have goes {phase : Phase} (hp : phase.PagesLawful) : (s.setPhase d op phase).handLines.PageLaw :=
      (h.setPhase (h.busy hop) hp).handLines
    split
    · split
      · exact goes trivial
      · exact goes Page.canonical_nil
      · exact goes Page.canonical_nil
      · exact h.completeMedia d op (MediaResult.pagesLawful_pass Page.canonical_nil) _
    all_goals exact h

/-- The page that a die gives is put into canonical form as it is taken (log entry 7). -/
theorem execReadoutEnd {d : Die} {page : Page} {t : State} (ht : execReadoutEnd d page s = .next t) : t.PageLaw := by
  cases ht
  split
  · exact h
  · exact h
  next op hop =>
    split
    · exact (h.releaseLines.setPhase (h.busy hop) (phase := .status _) (normalizePage_canonical page)).handLines
    · exact h

theorem execMediaOperationComplete {d : Die} {status : Byte} {t : State}
    (ht : execMediaOperationComplete d status s = .next t) : t.PageLaw := by
  cases ht
  split
  · exact h
  · exact h
  next op hop =>
    obtain ⟨-, hphase, -⟩ := h.busy hop
    split
    next data hp =>
      rw [hp] at hphase
      split
      · exact h.releaseLines.completeMedia _ _ (statusResult_pagesLawful status hphase) _
      · exact h
    all_goals exact h

theorem execDieTimeout {d : Die} {t : State} (ht : execDieTimeout d s = .next t) : t.PageLaw := by
  cases ht
  split
  · exact h
  · exact h
  · split
    · split
      · exact (h.timeOut _ _ _ _).settled
      · exact h
    all_goals exact h

/-! ### The drop timers, the supply, the line reset and the Timebase -/

theorem execSettleTimerExpiry {t : State} (ht : execSettleTimerExpiry s = .next t) : t.PageLaw := by
  cases ht
  split
  · exact (h.of_stores (s.storesKept_closeDrop _)).settled
  · exact h

theorem execCeilingTimerExpiry {t : State} (ht : execCeilingTimerExpiry s = .next t) : t.PageLaw := by
  cases ht
  split
  · have closed := h.of_stores (s.storesKept_closeDrop true)
    exact (closed.of_stores (State.storesKept_suspendFreeFall _ _ _)).settled
  · exact h

theorem execStartUpSettleEnd {t : State} (ht : execStartUpSettleEnd s = .next t) : t.PageLaw := by
  cases ht
  split
  · split
    · exact (h.asking (q := .probeDieZero) (op := .probe 0) trivial trivial).settled
    · exact h.stopStartUp.settled
  · exact h

theorem flushFront : s.flushFront.PageLaw := by
  unfold State.flushFront
  dsimp only
  split
  · exact h.withFront _
  · exact PageLaw.withFront (h.withFrontState _) _
  · exact PageLaw.withFront (h.abandonRead.withFrontState _) _
  · exact PageLaw.withFront (h.withFrontState _) _
  · exact h.dropReceiving.withFront _
  · exact PageLaw.withFront (h.withFrontState _) _

theorem lineFront : s.lineFront.PageLaw := by
  unfold State.lineFront
  dsimp only
  split
  · exact h.withFront _
  · exact PageLaw.withFront (h.withFrontState _) _
  · exact PageLaw.withFront (h.abandonRead.withFrontState _) _
  · exact PageLaw.withFront (h.withFrontState _) _
  · exact h.dropReceiving.withFront _
  · exact PageLaw.withFront (h.withFrontState _) _

theorem enterFlushing : s.enterFlushing.PageLaw := by
  have begun : s.flushControl.PageLaw := h.withSequence (q := .drain) trivial |>.of_frame ⟨rfl, rfl, rfl, rfl, rfl, rfl⟩
  have released := begun.flushFront.detach.restand .disregarded
  exact (released.of_stores (State.storesKept_withDrop _ _)).settled

theorem execSupgoodFall {t : State} (ht : execSupgoodFall s = .next t) : t.PageLaw := by
  have low := h.of_stores (s.storesKept_withPins { s.pins with supgood := false })
  cases ht
  split
  · dsimp only
    split
    · exact low.stopStartUp.settled
    · exact low.enterFlushing
    · exact low.enterFlushing
    · exact low
    · exact low.stopRecovery.settled
  · exact h

theorem execSupgoodRise {t : State} (ht : execSupgoodRise s = .next t) : t.PageLaw := by
  have high := h.of_stores (s.storesKept_withPins { s.pins with supgood := true })
  cases ht
  split
  · exact h
  · dsimp only
    split
    case h_5 => exact high.beginRecovery.settled
    all_goals exact high

theorem execRsvgoodFall {t : State} (ht : execRsvgoodFall s = .next t) : t.PageLaw := by
  have low := h.of_stores (s.storesKept_withPins { s.pins with rsvgood := false })
  cases ht
  split
  · dsimp only
    split
    case h_4 => exact PageLaw.settled (low.of_frame ⟨rfl, rfl, rfl, rfl, rfl, rfl⟩)
    all_goals exact low
  · exact h

theorem execRsvgoodRise {t : State} (ht : execRsvgoodRise s = .next t) : t.PageLaw := by
  cases ht
  split
  · exact h
  · exact h.of_stores (s.storesKept_withPins _)

theorem beginLineReset : s.beginLineReset.PageLaw := by
  have marked : (s.lineControl (s.queue.entries.any Entry.withdrawable)).PageLaw := h.withControl rfl
  have detached := marked.lineFront.withdraw.detach
  have patient := detached.mapDies (f := fun r => { r with patience := 0 }) (fun _ hr => hr)
    (m := Scheduler.clearPatience _) rfl detached.services
  unfold State.beginLineReset
  exact (patient.lineProbeNext _).settled

theorem execLrst {t : State} (ht : execLrst s = .next t) : t.PageLaw := by
  cases ht
  split
  case h_1 => exact h.beginLineReset
  all_goals exact h

/-- A tick leaves the page a scan has kept. -/
theorem sequence_advance : s.control.sequence.advance.PagesLawful := by
  have kept := h.sequence
  by_cases hq : ∃ elapsed, s.control.sequence = .settling elapsed
  · obtain ⟨elapsed, hq⟩ := hq
    rw [hq]
    trivial
  · rw [Sequence.advance_of_not_settling (not_exists.1 hq)]
    exact kept

theorem execTick {t : State} (ht : execTick s = .next t) : t.PageLaw := by
  cases ht
  have advanced := h.mapDies (fun _ => DieRecord.advance_pagesLawful)
    (m := { s.media with dies := s.media.dies.map DieRecord.advance }) rfl h.services
  exact (advanced.withSequence h.sequence_advance).of_frame ⟨rfl, rfl, rfl, rfl, rfl, rfl⟩

end State.PageLaw

theorem State.PageLaw.powerOn (levels : LineLevels) (free : Nat) (pending : List Instr) :
    (State.powerOn levels free pending).PageLaw where
  reserved := nofun
  entries := nofun
  consumption := nofun
  services := nofun
  dies d := by fin_cases d <;> exact trivial
  sequence := trivial

/-! ### The obligation -/

/-- Every command keeps the law. -/
theorem State.PageLaw.exec {c : Instr} {s t : State} (h : s.PageLaw) (ht : exec c s = .next t) : t.PageLaw := by
  cases c with
  | powerOn levels => cases ht; exact State.PageLaw.powerOn levels s.free s.pending
  | startUpSettleEnd => exact h.execStartUpSettleEnd ht
  | read => cases ht; exact h.takeOperation .read
  | program => cases ht; exact h.takeOperation .program
  | erase => cases ht; exact h.takeOperation .erase
  | status => exact h.execStatus ht
  | reset => exact h.execReset ht
  | unknownOperationByte byte => exact h.execUnknownOperationByte ht
  | addressByte byte => exact h.execAddressByte ht
  | dataByte byte => exact h.execDataByte ht
  | readStrobe => exact h.execReadStrobe ht
  | endStrobe => exact h.execEnd ht
  | commandTransferEnd die => exact h.execCommandTransferEnd ht
  | mrdySeenHigh die => exact h.execMrdySeenHigh ht
  | readoutEnd die page => exact h.execReadoutEnd ht
  | mediaOperationComplete die status => exact h.execMediaOperationComplete ht
  | dieTimeout die => exact h.execDieTimeout ht
  | ffallRise => exact h.of_stores (storesKept_execFfallRise ht)
  | ffallFall => exact h.of_stores (storesKept_execFfallFall ht)
  | fimpRise => exact h.of_stores (storesKept_execFimpRise ht)
  | fimpFall => exact h.of_stores (storesKept_execFimpFall ht)
  | mergeTimerExpiry => exact h.of_stores (storesKept_execMergeTimerExpiry ht)
  | settleTimerExpiry => exact h.execSettleTimerExpiry ht
  | ceilingTimerExpiry => exact h.execCeilingTimerExpiry ht
  | qpulseRise qdir => cases ht; exact h.of_stores (s.storesKept_withGauge _)
  | tfreqRise => cases ht; exact h.of_stores (s.storesKept_withGauge _)
  | gateEnd => exact h.of_stores (storesKept_execGateEnd ht)
  | minuteBoundary => exact h.of_stores (storesKept_execMinuteBoundary ht)
  | chgdoneRise => cases ht; exact h.of_stores (s.storesKept_takeBatteryEdge .chgdone)
  | pkemptyRise => cases ht; exact h.of_stores (s.storesKept_takeBatteryEdge .pkempty)
  | pkpresFall => exact h.of_stores (storesKept_execPkpresFall ht)
  | pkpresRise => exact h.of_stores (storesKept_execPkpresRise ht)
  | supgoodFall => exact h.execSupgoodFall ht
  | supgoodRise => exact h.execSupgoodRise ht
  | rsvgoodFall => exact h.execRsvgoodFall ht
  | rsvgoodRise => exact h.execRsvgoodRise ht
  | lrst => exact h.execLrst ht
  | tick => exact h.execTick ht

/-- Settles O59: every command keeps the law. A page enters the part from a die, where `normalizePage` puts it into canonical
form, from data bytes, where `writePage` keeps it there, or composed as a note from the blank page; everything else moves or
forgets pages that the law already covers. -/
theorem pageLawIsKept : Obligations.PageLawIsKept :=
  fun _ _ h ht => step_keeps (fun _ _ h => h.of_frame ⟨rfl, rfl, rfl, rfl, rfl, rfl⟩) (fun _ _ _ h ht => h.exec ht) ht h

end Sys2Proof.Machine
end

section
/-! The front store bus (02): operation bytes, STATUS and RESET (R19 to R37). -/

namespace Sys2Proof.Machine

/-! ### When the front listens (R36, R37) -/

theorem State.frontIgnored_iff {s : State} :
    s.frontIgnored = true ↔ s.control.state = .flushing ∨ s.control.state = .spent := by
  simp [State.frontIgnored]

theorem State.frontClosed_iff {s : State} :
    s.frontClosed = true ↔ s.control.state = .starting ∨ s.control.state = .lineReset := by
  simp [State.frontClosed]

theorem State.not_frontIgnored {s : State} (hf : s.control.state ≠ .flushing) (hs : s.control.state ≠ .spent) :
    ¬ s.frontIgnored = true := fun h => (State.frontIgnored_iff.1 h).elim hf hs

theorem State.not_frontIgnored_of_service {s : State} (h : s.control.state = .service) : ¬ s.frontIgnored = true :=
  State.not_frontIgnored (by simp [h]) (by simp [h])

theorem State.not_frontIgnored_of_closed {s : State} (h : s.control.state = .starting ∨ s.control.state = .lineReset) :
    ¬ s.frontIgnored = true :=
  State.not_frontIgnored (by rcases h with h | h <;> simp [h]) (by rcases h with h | h <;> simp [h])

theorem State.not_frontClosed_of_service {s : State} (h : s.control.state = .service) : ¬ s.frontClosed = true := by
  simp [State.frontClosed_iff, h]

theorem FrontState.isPending_iff {f : FrontState} : f.isPending = true ↔ f.isLoading = true ∨ f = .awaiting := by
  cases f <;> simp [FrontState.isPending, FrontState.isLoading]

theorem FrontState.isLoading_iff {f : FrontState} : f.isLoading = true ↔ ∃ row column, f = .loading row column := by
  cases f <;> simp [FrontState.isLoading]

theorem FrontState.ready_eq (f : FrontState) : f.ready = (!f.isLoading && decide (f ≠ .awaiting)) := by
  cases f <;> rfl

/-! ### What ends the operation in progress (R22, R23, R34, R35) -/

/-- A transaction in progress ends with its slot and its bytes; a READ in LOADING and an entry in AWAITING stay. -/
theorem State.endTransaction_eq (s : State) : s.endTransaction = { s with
    front := { s.front with
      state := if s.front.state.isLoading ∨ s.front.state = .awaiting then s.front.state else .idle }
    queue := s.queueReleased
    report := s.reportReleased } := by
  obtain ⟨tick, pins, ⟨state, fail, refused, posted, counters, selected, out⟩, queue, media, drop, gauge, control, report,
    free, pending⟩ := s
  cases state <;> rfl

/-- A RESET outside AWAITING abandons the operation (R34). -/
theorem State.resetOperation_eq {s : State} (h : s.front.state ≠ .awaiting) : s.resetOperation = { s with
    front := { s.front with state := .idle }
    queue := s.queueReleased
    media := s.mediaReleased
    report := s.reportReleased } := by
  obtain ⟨tick, pins, ⟨state, fail, refused, posted, counters, selected, out⟩, queue, media, drop, gauge, control, report,
    free, pending⟩ := s
  cases state with
  | awaiting => exact absurd rfl h
  | idle => rfl
  | addressing kind taken => rfl
  | loading row column => rfl
  | delivering rest => rfl
  | receiving op next => rfl

/-! ### READ, PROGRAM, ERASE and RESET bytes (R19, R25) -/

theorem exec_operation (kind : OpKind) (s : State) : exec kind.command s = .next (s.takeOperation kind) := by
  cases kind <;> rfl

theorem State.takeOperation_ignored {s : State} (kind : OpKind) (h : s.frontIgnored = true) :
    s.takeOperation kind = s := by
  simp [State.takeOperation, h]

/-- A byte taken in STARTING or LINE_RESET is refused with cause STATE (R25, R36). -/
theorem State.takeOperation_closed {s : State} (kind : OpKind)
    (h : s.control.state = .starting ∨ s.control.state = .lineReset) :
    s.takeOperation kind = s.deselect.refuseByte .state := by
  unfold State.takeOperation
  rw [if_neg (State.not_frontIgnored_of_closed h)]
  exact if_pos (State.frontClosed_iff.2 h)

/-- A byte taken with a READ or an entry pending is refused with cause SEQUENCE (R23, R25). -/
theorem State.takeOperation_pending {s : State} (kind : OpKind) (h : s.control.state = .service)
    (hp : s.front.state.isPending = true) : s.takeOperation kind = s.deselect.refuseByte .sequence := by
  unfold State.takeOperation
  rw [if_neg (State.not_frontIgnored_of_service h)]
  dsimp only
  rw [if_neg (State.not_frontClosed_of_service h), if_pos hp]

/-- Any other byte ends the transaction in progress and begins the address phase (R21, R22). -/
theorem State.takeOperation_begins {s : State} (kind : OpKind) (h : s.control.state = .service)
    (hp : ¬ s.front.state.isPending = true) : s.takeOperation kind = { s with
      front := { s.front with state := .addressing kind [], statusSelected := false }
      queue := s.queueReleased
      report := s.reportReleased } := by
  unfold State.takeOperation
  rw [if_neg (State.not_frontIgnored_of_service h)]
  dsimp only
  rw [if_neg (State.not_frontClosed_of_service h), if_neg hp, State.endTransaction_eq]
  rfl

theorem exec_reset_ignored {s : State} (h : s.frontIgnored = true) : exec .reset s = .next s := by
  simp [exec, execReset, h]

theorem exec_reset_closed {s : State} (h : s.control.state = .starting ∨ s.control.state = .lineReset) :
    exec .reset s = .next (s.deselect.refuseByte .state) := by
  simp [exec, execReset, State.not_frontIgnored_of_closed h, State.frontClosed_iff.2 h]

/-- A RESET in SERVICE abandons the operation and clears the latched fields (R34). -/
theorem exec_reset_service {s : State} (h : s.control.state = .service) :
    exec .reset s = .next (s.resetOperation.withFront s.resetOperation.front.clearLatched) := by
  simp [exec, execReset, State.not_frontIgnored_of_service h, State.not_frontClosed_of_service h]

theorem exec_status_ignored {s : State} (h : s.frontIgnored = true) : exec .status s = .next s := by
  simp [exec, execStatus, h]

/-- STATUS ends a transaction that can end, and selects the status output (R33). -/
theorem exec_status_answered {s : State} (h : ¬ s.frontIgnored = true) :
    exec .status s = .next s.endTransaction.select := by
  have pending (hp : s.front.state.isPending = true) : s.endTransaction = s := by
    unfold State.endTransaction
    split <;> simp_all [FrontState.isPending]
  by_cases hp : s.front.state.isPending = true
  · simp [exec, execStatus, h, hp, pending hp]
  · simp [exec, execStatus, h, hp]

/-- Settles O5. -/
theorem operationBytesAreTakenOrRefused : Obligations.OperationBytesAreTakenOrRefused := by
  refine ⟨fun kind s hs hl ha => ?begins, fun c s hc hs => ?closed, fun kind s hs hp => ?pending, fun c s hc hs => ?ignored⟩
  case begins =>
    rw [exec_operation, State.takeOperation_begins kind hs]
    rw [FrontState.isPending_iff, FrontState.isLoading_iff]
    rintro (⟨row, column, hf⟩ | hf)
    · exact hl row column hf
    · exact ha hf
  case closed =>
    have refused (kind : OpKind) : exec kind.command s = .next (s.deselect.refuseByte .state) := by
      rw [exec_operation, State.takeOperation_closed kind hs]
    simp only [List.mem_cons, List.not_mem_nil, or_false] at hc
    rcases hc with rfl | rfl | rfl | rfl
    · exact refused .read
    · exact refused .program
    · exact refused .erase
    · exact exec_reset_closed hs
  case pending =>
    rw [exec_operation, State.takeOperation_pending kind hs]
    · rfl
    · rwa [FrontState.isPending_iff, FrontState.isLoading_iff]
  case ignored =>
    have hi := State.frontIgnored_iff.2 hs
    have ignored (kind : OpKind) : exec kind.command s = .next s := by
      rw [exec_operation, State.takeOperation_ignored kind hi]
    simp only [List.mem_cons, List.not_mem_nil, or_false] at hc
    rcases hc with rfl | rfl | rfl | rfl | rfl
    · exact ignored .read
    · exact ignored .program
    · exact ignored .erase
    · exact exec_status_ignored hi
    · exact exec_reset_ignored hi

/-! ### STATUS (R32, R33) -/

/-- Each flag is read back from its own bit, and bits 5 and 7 are 0. -/
theorem flagBits_getLsbD (b0 b1 b2 b3 b4 b6 : Bool) :
    let byte := BitVec.ofNat 8 (flagBit 0 b0 + flagBit 1 b1 + flagBit 2 b2 + flagBit 3 b3 + flagBit 4 b4 + flagBit 6 b6)
    byte.getLsbD 0 = b0 ∧ byte.getLsbD 1 = b1 ∧ byte.getLsbD 2 = b2 ∧ byte.getLsbD 3 = b3 ∧ byte.getLsbD 4 = b4 ∧
    byte.getLsbD 5 = false ∧ byte.getLsbD 6 = b6 ∧ byte.getLsbD 7 = false := by
  revert b0 b1 b2 b3 b4 b6
  decide

theorem State.frdy_eq (s : State) : s.frdy =
    (decide (s.control.state = .service) && !s.front.state.isLoading && decide (s.front.state ≠ .awaiting)) := by
  rw [State.frdy, FrontState.ready_eq, Bool.and_assoc]

/-- Settles O6. -/
theorem statusShowsTheFields : Obligations.StatusShowsTheFields := by
  refine ⟨fun s hf hs => ?_, fun s => ?_⟩
  · rw [exec_status_answered (State.not_frontIgnored hf hs), State.endTransaction_eq]
    rfl
  · obtain ⟨h0, h1, h2, h3, h4, h5, h6, h7⟩ := flagBits_getLsbD s.front.fail s.front.refused s.front.posted s.drop.hold
      s.report.attn s.frdy
    exact ⟨h0, h1, h2, h3, h4, h5, h6, s.frdy_eq, h7⟩

/-! ### RESET (R34, R35) -/

theorem Entry.withdrawable_iff {e : Entry} :
    e.withdrawable = true ↔ e.disposition = .awaiting .attached ∧ e.progress = .waiting := by
  simp [Entry.withdrawable, Entry.isAttached]

theorem any_withdrawable_posted {l : List Entry} (h : ∀ x ∈ l, x.disposition = .posted) :
    l.any Entry.withdrawable = false := by
  simp only [List.any_eq_false, Entry.withdrawable_iff]
  intro x hx hw
  simp [h x hx] at hw

section Youngest

variable {s : State} {older : List Entry} {e : Entry}

/-- The attached entry WAITING behind POSTED entries leaves the queue, and the Drop Monitor is told (R54). -/
theorem State.withdraw_youngest (hq : s.queue.entries = older ++ [e]) (ho : ∀ x ∈ older, x.disposition = .posted)
    (he : e.withdrawable = true) :
    s.withdraw = (s.withQueue { s.queue with entries := older }).dropDeparted e.dropTag .withdrawn := by
  obtain ⟨hfind, hrest⟩ := withdraw_split ho he
  unfold State.withdraw
  rw [hq, hfind]
  dsimp only
  rw [hrest]

/-- Any other AWAITING entry behind POSTED entries is the one that is detached (R54, R55). -/
theorem HoldQueue.detach_youngest {q : HoldQueue} {a : Attachment} (hq : q.entries = older ++ [e])
    (ho : ∀ x ∈ older, x.disposition = .posted) (he : e.disposition = .awaiting a) :
    q.detach = { q with entries := older ++ [{ e with disposition := .awaiting .detached }] } := by
  simp [HoldQueue.detach, hq, map_detachEntry_posted ho, detachEntry, he]

theorem any_withdrawable_youngest (hq : s.queue.entries = older ++ [e]) (ho : ∀ x ∈ older, x.disposition = .posted) :
    s.queue.entries.any Entry.withdrawable = e.withdrawable := by
  simp [hq, any_withdrawable_posted ho]

end Youngest

/-- An entry that is detached or COMMITTING is not withdrawn. -/
theorem Entry.not_withdrawable {e : Entry} {a : Attachment} (he : e.disposition = .awaiting a)
    (ha : a = .detached ∨ e.progress = .committing) : e.withdrawable = false := by
  rw [← Bool.not_eq_true, Entry.withdrawable_iff, he]
  rintro ⟨hattached, hwaiting⟩
  rcases ha with rfl | hp
  · cases hattached
  · rw [hp] at hwaiting
    cases hwaiting

/-- Settles O7. -/
theorem resetAbandonsTheOperation : Obligations.ResetAbandonsTheOperation := by
  refine ⟨DieRecord.abandon_spec, fun s hs hf => ?outside, fun s older e hs hf hq ho => ⟨fun hd hp => ?waiting,
    fun a hd ha => ?stays⟩⟩
  case outside =>
    rw [exec_reset_service hs, State.resetOperation_eq hf]
    rfl
  case waiting =>
    have hw : e.withdrawable = true := Entry.withdrawable_iff.2 ⟨hd, hp⟩
    have operation : s.resetOperation =
        ((s.withQueue { s.queue with entries := older }).dropDeparted e.dropTag .withdrawn).withFrontState .idle := by
      rw [State.resetOperation, hf]
      dsimp only
      rw [State.resetAwaiting, any_withdrawable_youngest hq ho, if_pos hw, State.withdraw_youngest hq ho hw]
    rw [exec_reset_service hs, operation, State.withFrontState, State.withFront_twice, State.dropDeparted_withFront]
    simp [FrontPort.clearLatched]
    rfl
  case stays =>
    have operation : s.resetOperation = s.withQueue s.queue.detach := by
      rw [State.resetOperation, hf]
      dsimp only
      rw [State.resetAwaiting, any_withdrawable_youngest hq ho, if_neg (by simp [Entry.not_withdrawable hd ha])]
    rw [exec_reset_service hs, operation, HoldQueue.detach_youngest hq ho hd]
    rfl

end Sys2Proof.Machine
end

section
/-! The front store bus (02): the strobes of the address and data phases, and the bytes that name no operation
(R19, R20, R24, R28, R29, R33). -/

namespace Sys2Proof

/-! ### Operation bytes and the words that spell them (R19, R185) -/

theorem operationOf_eq_some_iff {byte : Byte} {op : StoreOperation} : operationOf byte = some op ↔ byte = op.byte := by
  constructor
  · intro h
    have named : (op.byte == byte) = true :=
      List.find?_some (p := fun op : StoreOperation => op.byte == byte) h
    exact (beq_iff_eq.1 named).symm
  · rintro rfl
    exact operationOf_byte op

theorem frontCommand_byte (op : StoreOperation) : frontCommand op.byte = op.command := by
  rw [frontCommand, operationOf_byte]

theorem operationOf_eq_none {byte : Byte} (h : byte ∉ [0x1B#8, 0x5C#8, 0x6D#8, 0x71#8, 0xF3#8]) :
    operationOf byte = none := by
  cases hop : operationOf byte with
  | none => rfl
  | some op =>
    rw [operationOf_eq_some_iff] at hop
    subst hop
    cases op <;> exact absurd h (by decide)

theorem decodeTableWord_eq_some_iff {nbits w : Nat} {c : Instr} :
    decodeTableWord nbits w = some c ↔ nbits = 8 ∧ ∃ op : StoreOperation, w = op.byte.toNat ∧ c = op.command := by
  unfold decodeTableWord
  constructor
  · intro h
    split at h
    case isTrue fits =>
      obtain ⟨op, hop, rfl⟩ := Option.map_eq_some_iff.1 h
      rw [operationOf_eq_some_iff] at hop
      refine ⟨fits.1, op, ?_, rfl⟩
      rw [← hop, BitVec.toNat_ofNat, Nat.mod_eq_of_lt fits.2]
    case isFalse => cases h
  · rintro ⟨rfl, op, rfl, rfl⟩
    rw [if_pos ⟨rfl, op.byte.isLt⟩, BitVec.ofNat_toNat, BitVec.setWidth_eq, operationOf_byte]
    rfl

namespace Machine

theorem exec_unknownOperationByte (byte : Byte) (s : State) :
    exec (.unknownOperationByte byte) s = match operationOf byte with
      | none => .next s
      | some op => exec op.command s := by
  cases h : operationOf byte with
  | none => simp [exec, execUnknownOperationByte, h]
  | some op => cases op <;> simp [exec, execUnknownOperationByte, h, StoreOperation.command]

/-! ### The strobes while the front is ignored (R37) -/

theorem exec_addressByte_ignored {s : State} (byte : Byte) (h : s.frontIgnored = true) :
    exec (.addressByte byte) s = .next s := by
  simp [exec, execAddressByte, h]

theorem exec_dataByte_ignored {s : State} (byte : Byte) (h : s.frontIgnored = true) :
    exec (.dataByte byte) s = .next s := by
  simp [exec, execDataByte, h]

theorem exec_endStrobe_ignored {s : State} (h : s.frontIgnored = true) : exec .endStrobe s = .next s := by
  simp [exec, execEnd, h]

/-! ### The strobes the front state does not expect (R24) -/

theorem exec_addressByte_unexpected {s : State} (byte : Byte) (h : ∀ kind taken, s.front.state ≠ .addressing kind taken) :
    exec (.addressByte byte) s = .next s := by
  by_cases hi : s.frontIgnored = true
  · exact exec_addressByte_ignored byte hi
  · cases hf : s.front.state with
    | addressing kind taken => exact absurd hf (h kind taken)
    | _ => simp [exec, execAddressByte, hi, hf]

theorem exec_dataByte_unexpected {s : State} (byte : Byte)
    (h : ∀ op next, s.front.state = .receiving op next → op.kind ≠ .program) : exec (.dataByte byte) s = .next s := by
  by_cases hi : s.frontIgnored = true
  · exact exec_dataByte_ignored byte hi
  · cases hf : s.front.state with
    | receiving op next => simp [exec, execDataByte, hf, h op next hf]
    | _ => simp [exec, execDataByte, hf]

theorem exec_endStrobe_unexpected {s : State} (h : ∀ op next, s.front.state ≠ .receiving op next) :
    exec .endStrobe s = .next s := by
  by_cases hi : s.frontIgnored = true
  · exact exec_endStrobe_ignored hi
  · cases hf : s.front.state with
    | receiving op next => exact absurd hf (h op next)
    | _ => simp [exec, execEnd, hf]

/-- Settles O8. -/
theorem unexpectedStrobesChangeNothing : Obligations.UnexpectedStrobesChangeNothing := by
  refine ⟨⟨frontCommand_byte .read, frontCommand_byte .program, frontCommand_byte .erase, frontCommand_byte .status,
    frontCommand_byte .reset⟩, fun nbits w c => ?words, fun s nbits w => ?fetch, fun byte s h => ?unnamed,
    fun byte s => ?acts, fun byte s => exec_addressByte_unexpected byte, fun byte s h => ?data, fun byte s op next hf hk =>
    ?erase, fun s => exec_endStrobe_unexpected, fun c byte s hc hs => ?ignored⟩
  case words =>
    rw [decodeTableWord_eq_some_iff]
    refine and_congr_right fun _ => ⟨?_, fun h => ?_⟩
    · rintro ⟨op, rfl, rfl⟩
      cases op <;> decide
    · simp only [List.mem_cons, List.not_mem_nil, or_false, Prod.mk.injEq] at h
      rcases h with ⟨rfl, rfl⟩ | ⟨rfl, rfl⟩ | ⟨rfl, rfl⟩ | ⟨rfl, rfl⟩ | ⟨rfl, rfl⟩
      · exact ⟨.read, rfl, rfl⟩
      · exact ⟨.program, rfl, rfl⟩
      · exact ⟨.erase, rfl, rfl⟩
      · exact ⟨.status, rfl, rfl⟩
      · exact ⟨.reset, rfl, rfl⟩
  case fetch =>
    cases h : decodeTableWord nbits w <;> simp [State.withFetchWord, h, State.withPending]
  case unnamed =>
    have none_named := operationOf_eq_none h
    exact ⟨by rw [frontCommand, none_named], by rw [exec_unknownOperationByte, none_named]⟩
  case acts =>
    cases h : operationOf byte with
    | none => rw [frontCommand, h]
    | some op => rw [exec_unknownOperationByte, frontCommand, h]
  case data => exact exec_dataByte_unexpected byte fun op next hf => absurd hf (h op next)
  case erase =>
    refine exec_dataByte_unexpected byte fun op' next' hf' => ?_
    rw [hf] at hf'
    cases hf'
    simp [hk]
  case ignored =>
    have hi := State.frontIgnored_iff.2 hs
    simp only [List.mem_cons, List.not_mem_nil, or_false] at hc
    rcases hc with rfl | rfl | rfl
    · exact exec_addressByte_ignored byte hi
    · exact exec_dataByte_ignored byte hi
    · exact exec_endStrobe_ignored hi

/-! ### Every command completes -/

/-- Settles O2. -/
theorem everyCommandCompletes : Obligations.EveryCommandCompletes := by
  intro c s
  cases c with
  | unknownOperationByte byte =>
    rw [exec_unknownOperationByte]
    cases operationOf byte with
    | none => exact ⟨s, rfl⟩
    | some op => cases op <;> exact ⟨_, rfl⟩
  | _ => exact ⟨_, rfl⟩

/-! ### The address phase (R19, R20) -/

section AddressPhase

variable {s : State} {kind : OpKind}

/-- The first four address bytes are kept. -/
theorem exec_addressByte_early {taken : List Byte} (byte : Byte) (hs : s.control.state = .service)
    (hf : s.front.state = .addressing kind taken) (hl : taken.length < 4) :
    exec (.addressByte byte) s = .next (s.withFrontState (.addressing kind (taken ++ [byte]))) := by
  have hi := State.not_frontIgnored_of_service hs
  match taken, hl with
  | [], _ | [_], _ | [_, _], _ | [_, _, _], _ => simp [exec, execAddressByte, hi, hf]

/-- The fifth address byte ends the address phase. -/
theorem exec_addressByte_fifth {row2 row1 row0 column1 : Byte} (column0 : Byte) (hs : s.control.state = .service)
    (hf : s.front.state = .addressing kind [row2, row1, row0, column1]) :
    exec (.addressByte column0) s = .next (s.endAddress kind (addressOf row2 row1 row0 column1 column0)) := by
  simp [exec, execAddressByte, State.not_frontIgnored_of_service hs, hf]

end AddressPhase

theorem toNat_append_byte {n : Nat} (high : BitVec n) (low : Byte) : (high ++ low).toNat = high.toNat * 256 + low.toNat := by
  rw [BitVec.toNat_append, ← Nat.shiftLeft_add_eq_or_of_lt low.isLt, Nat.shiftLeft_eq]

theorem getLsbD_append_byte (high low : Byte) (i : Nat) : (high ++ low).getLsbD (8 + i) = high.getLsbD i := by
  rw [BitVec.getLsbD_append, if_neg (by omega), Nat.add_sub_cancel_left]

/-- Settles O9. -/
theorem addressBytesFormTheAddress : Obligations.AddressBytesFormTheAddress := by
  refine ⟨fun byte s kind taken hs hf hl => exec_addressByte_early byte hs hf hl,
    fun row2 row1 row0 column1 column0 => ⟨?row, ?column, ?absolute, ?through, ?reserved⟩⟩
  case row => simp only [addressOf, toNat_append_byte]; omega
  case column =>
    rw [← toNat_append_byte]
    exact BitVec.extractLsb'_toNat ..
  case absolute => exact getLsbD_append_byte column1 column0 7
  case through => exact getLsbD_append_byte column1 column0 6
  case reserved => exact getLsbD_append_byte column1 column0 5

end Machine

end Sys2Proof
end

section
/-! The front store bus (02): the end of the address phase, and what a READ, PROGRAM or ERASE goes on to (R20, R25, R27,
R29). -/

namespace Sys2Proof.Machine

/-! ### The causes the address phase refuses with (R25) -/

section Causes

variable {v : Settings} {installed : Nat} {kind : OpKind} {a : Address} {cause : RefusalCause}

theorem translateAbsolute_recorded (h : translateAbsolute v installed kind a = .refused cause) :
    cause.recorded.isSome = true := by
  unfold translateAbsolute at h
  dsimp only at h
  split at h
  · cases h; rfl
  · split at h <;> cases h
    rfl

theorem translateReport_recorded {offset : Nat} (h : translateReport kind a offset = .refused cause) :
    cause.recorded.isSome = true := by
  unfold translateReport at h
  dsimp only at h
  split at h
  · cases h; rfl
  · cases kind with
    | read => cases h
    | program =>
      dsimp only at h
      split at h <;> cases h
      rfl
    | erase => cases h; rfl

theorem translateProfile_recorded {offset : Nat} (h : translateProfile kind a offset = .refused cause) :
    cause.recorded.isSome = true := by
  unfold translateProfile at h
  split at h <;> cases h
  rfl

theorem translateSurvey_recorded {number offset : Nat} {w : Window}
    (h : translateSurvey kind a number offset w = .refused cause) : cause.recorded.isSome = true := by
  unfold translateSurvey at h
  split at h
  · cases h; rfl
  · split at h
    · cases h; rfl
    · split at h <;> cases h
      rfl

theorem translateWindowed_recorded (h : translateWindowed v kind a = .refused cause) : cause.recorded.isSome = true := by
  unfold translateWindowed at h
  dsimp only at h
  split at h
  · exact translateReport_recorded h
  · split at h
    · exact translateProfile_recorded h
    · split at h
      · cases h; rfl
      · exact translateSurvey_recorded h

/-- The Translator refuses with recorded causes alone. -/
theorem translate_recorded (h : Machine.translate v installed kind a = .refused cause) :
    cause.recorded.isSome = true := by
  unfold Machine.translate at h
  split at h
  · cases h; rfl
  · split at h
    · cases h; rfl
    · split at h
      · cases h; rfl
      · split at h
        · exact translateAbsolute_recorded h
        · exact translateWindowed_recorded h

theorem screen_refused_cause (h : screen v installed kind a = .refused cause) :
    cause = .qualifier ∨ cause.recorded.isSome = true := by
  unfold screen at h
  split at h
  · cases h; exact .inl rfl
  · exact .inr (translate_recorded h)

end Causes

/-! ### The fifth address byte -/

section Fifth

variable {s : State} {kind : OpKind} {row2 row1 row0 column1 column0 : Byte}

/-- The fifth byte of a refused operation (R25). -/
theorem exec_addressByte_refused {cause : RefusalCause} (hs : s.control.state = .service)
    (hf : s.front.state = .addressing kind [row2, row1, row0, column1])
    (h : screen s.control.settings s.control.installed kind (addressOf row2 row1 row0 column1 column0) = .refused cause) :
    exec (.addressByte column0) s = .next ((s.withFrontState .idle).refuse cause kind (row2 ++ row1 ++ row0)
      (column1.getLsbD 7)) := by
  have absolute : (addressOf row2 row1 row0 column1 column0).absolute = column1.getLsbD 7 :=
    getLsbD_append_byte column1 column0 7
  rw [exec_addressByte_fifth column0 hs hf, State.endAddress, h, ← absolute]
  rfl

/-- The fifth byte of an operation that passes screening. -/
theorem exec_addressByte_passed {op : Translated} (hs : s.control.state = .service)
    (hf : s.front.state = .addressing kind [row2, row1, row0, column1])
    (h : screen s.control.settings s.control.installed kind (addressOf row2 row1 row0 column1 column0) = .passed op) :
    exec (.addressByte column0) s = .next (s.route op) := by
  rw [exec_addressByte_fifth column0 hs hf, State.endAddress, h]

end Fifth

/-- Settles O10. -/
theorem addressPhaseRefuses : Obligations.AddressPhaseRefuses := by
  intro s kind row2 row1 row0 column1 column0 cause hs hf h
  rw [exec_addressByte_refused hs hf h]
  have hcause := screen_refused_cause h
  cases cause with
  | qualifier => exact ⟨_, _, rfl, .inl ⟨rfl, rfl, rfl⟩⟩
  | address => exact ⟨_, _, rfl, .inr (.inl ⟨rfl, rfl, rfl⟩)⟩
  | closed => exact ⟨_, _, rfl, .inr (.inr (.inl ⟨rfl, rfl, rfl⟩))⟩
  | service => exact ⟨_, _, rfl, .inr (.inr (.inr ⟨rfl, rfl, rfl⟩))⟩
  | sequence => exact absurd hcause (by decide)
  | state => exact absurd hcause (by decide)

/-! ### Where a translated operation goes (R14 to R17, R27, R29) -/

theorem State.route_write {s : State} {op : Translated} (h : op.kind ≠ .read) :
    s.route op = s.clearRefused.receive op := by
  unfold State.route
  cases hk : op.kind with
  | read => exact absurd hk h
  | program => rfl
  | erase => rfl

/-- A write to the media reserves a slot of 0xFF bytes (R41). -/
theorem State.receive_slot {s : State} {op : Translated} (h : ∀ page, op.path ≠ .report page) :
    s.receive op = (s.withQueue { s.queue with reserved := some [] }).withFrontState (.receiving op op.column) := by
  unfold State.receive
  cases hp : op.path with
  | report page => exact absurd hp (h page)
  | _ => rfl

theorem State.receive_report {s : State} {op : Translated} {page : Nat} (h : op.path = .report page) :
    s.receive op = (s.withReport { s.report with consumption := some [] }).withFrontState (.receiving op op.column) := by
  rw [State.receive, h]

theorem State.route_read_report {s : State} {op : Translated} {page : Nat} (hk : op.kind = .read)
    (hp : op.path = .report page) : s.route op = s.clearRefused.deliverReport page op.column := by
  rw [State.route, hk, hp]

theorem State.route_read_snoop {s : State} {op : Translated} {row : Nat} (hk : op.kind = .read)
    (hp : op.path = .snoop row) : s.route op = s.clearRefused.snoop row op.column := by
  rw [State.route, hk, hp]

/-- Settles O12. -/
theorem writeEntersReceiving : Obligations.WriteEntersReceiving := by
  intro s kind row2 row1 row0 column1 column0 op hs hf hk h
  obtain ⟨rfl, -, -⟩ := screen_passed h
  rw [exec_addressByte_passed hs hf h, State.route_write hk]
  refine ⟨rfl, fun hp => ?slot, fun page hp => ?report⟩
  case slot => rw [State.receive_slot hp]; rfl
  case report => rw [State.receive_report hp]; rfl

/-- A READ over a queued erase is composed on the erased page, without a media read (R59). -/
theorem State.snoop_over_erase {s : State} {row column : Nat} {younger : List Entry}
    (h : afterErase (row / 128) s.queue.entries = some younger) : s.snoop row column = { s with
      front := { s.front with
        state := .delivering (pageBytes (composeOver [] row younger) column (4224 - column))
        fail := s.queue.covered row, statusSelected := false } } := by
  rw [State.snoop, h]
  dsimp only
  rw [State.deliver, HoldQueue.composed, h]
  rfl

/-- Any other READ waits for its media read (R27). -/
theorem State.snoop_loads {s : State} {row column : Nat} (h : afterErase (row / 128) s.queue.entries = none) :
    s.snoop row column = State.settled { s with
      front := { s.front with state := .loading row column }
      media := { s.media with frontRead := some row } } := by
  rw [State.snoop, h]
  rfl

/-- Settles O13. -/
theorem readDeliversOrLoads : Obligations.ReadDeliversOrLoads := by
  intro s row2 row1 row0 column1 column0 op hs hf h
  obtain ⟨hk, -, -⟩ := screen_passed h
  rw [exec_addressByte_passed hs hf h]
  refine ⟨fun page hp => ?report, fun row younger hp he => ?erased, fun row hp he => ?loads⟩
  case report => rw [State.route_read_report hk hp]; rfl
  case erased => rw [State.route_read_snoop hk hp, State.snoop_over_erase (s := s.clearRefused) he]; rfl
  case loads => rw [State.route_read_snoop hk hp, State.snoop_loads (s := s.clearRefused) he]; rfl

/-! ### Data bytes and read strobes (R24, R28, R29, R33, R37) -/

section Data

variable {s : State} {op : Translated} {next : Nat} {image : Page} (byte : Byte)

theorem exec_dataByte_taken (hs : s.control.state = .service) (hf : s.front.state = .receiving op next)
    (hk : op.kind = .program) : exec (.dataByte byte) s = .next (s.takeData op next byte) := by
  simp [exec, execDataByte, State.not_frontIgnored_of_service hs, hf, hk]

theorem State.takeData_slot (hp : ∀ page, op.path ≠ .report page) (hr : s.queue.reserved = some image) :
    s.takeData op next byte = { s with
      front := { s.front with state := .receiving op (if next < 4224 then next + 1 else next) }
      queue := { s.queue with reserved := some (writePage image next byte) } } := by
  unfold State.takeData
  cases hpath : op.path with
  | report page => exact absurd hpath (hp page)
  | _ => simp [hr]; rfl

theorem State.takeData_report {page : Nat} (hp : op.path = .report page) (hr : s.report.consumption = some image) :
    s.takeData op next byte = { s with
      front := { s.front with state := .receiving op (if next < 4224 then next + 1 else next) }
      report := { s.report with consumption := some (writePage image next byte) } } := by
  rw [State.takeData, hp, hr]
  rfl

end Data

theorem exec_readStrobe_ignored {s : State} (h : s.frontIgnored = true) : exec .readStrobe s = .next (s.drive none) := by
  simp [exec, execReadStrobe, h]

theorem exec_readStrobe_delivers {s : State} {byte : Byte} {rest : List Byte} (hi : ¬ s.frontIgnored = true)
    (hf : s.front.state = .delivering (byte :: rest)) :
    exec .readStrobe s = .next ((s.drive (some byte)).withFrontState (.delivering rest)) := by
  simp [exec, execReadStrobe, hi, hf]

theorem exec_readStrobe_past {s : State} (hi : ¬ s.frontIgnored = true) (hf : s.front.state = .delivering []) :
    exec .readStrobe s = .next (s.drive (some 0xFF#8)) := by
  simp [exec, execReadStrobe, hi, hf]

theorem exec_readStrobe_outside {s : State} (hi : ¬ s.frontIgnored = true)
    (hf : ∀ rest, s.front.state ≠ .delivering rest) : exec .readStrobe s = .next s.strobeOutside := by
  cases hstate : s.front.state with
  | delivering rest => exact absurd hstate (hf rest)
  | _ => simp [exec, execReadStrobe, hi, hstate]

/-- Settles O14. -/
theorem dataBytesAndReadStrobesAct : Obligations.DataBytesAndReadStrobesAct := by
  refine ⟨fun byte s op next image hs hf hk hc => ?data, fun s hs => ?ignored, fun s hfl hsp => ?strobes⟩
  case data =>
    exact ⟨_, writePage image next byte, exec_dataByte_taken byte hs hf hk,
      fun c => readCell_writePage hc next c byte, State.takeData_slot byte, fun page => State.takeData_report byte⟩
  case ignored => exact exec_readStrobe_ignored (State.frontIgnored_iff.2 hs)
  case strobes =>
    have hi := State.not_frontIgnored hfl hsp
    exact ⟨fun byte rest hf => exec_readStrobe_delivers hi hf, exec_readStrobe_past hi, exec_readStrobe_outside hi⟩

end Sys2Proof.Machine
end

section
/-! END of a write on the QUEUE or PROFILE path (R30, R42, R43, R46, R97). -/

namespace Sys2Proof.Machine

theorem DropMonitor.hold_eq_true_iff {d : DropMonitor} : d.hold = true ↔ d.state ≠ .calm := by
  simp [DropMonitor.hold]

/-- The five conditions of a POSTED disposition (R43). -/
theorem State.postable_iff {s : State} {op : Translated} : s.postable op = true ↔
    s.drop.state ≠ .calm ∧ op.holdEligible = true ∧ op.through = false ∧ op.profileFlag = false ∧
    s.queue.entries.countP (fun x => decide (x.disposition = .posted)) < s.limit := by
  simp only [State.postable, Bool.and_eq_true, DropMonitor.hold_eq_true_iff, Bool.not_eq_true', decide_eq_true_eq,
    and_assoc]
  rfl

/-- The entry an END forms, in the words of R42, R43 and R46. -/
theorem State.formEntry_eq (s : State) (op : Translated) (row : Nat) : s.formEntry op row =
    { kind := if op.kind = .erase then .erase else .program, row := row
      disposition := if s.postable op then .posted else .awaiting .attached
      dropTag := if s.drop.state = .calm then none else some s.drop.counter
      origin := op.origin, profileFlag := op.profileFlag
      image := if op.kind = .erase then [] else s.queue.reserved.getD []
      progress := .waiting, acceptTick := s.tick } := by
  have tag : (if s.drop.hold = true then some s.drop.current else none) =
      if s.drop.state = .calm then none else some s.drop.counter := by
    simp only [DropMonitor.hold_eq_true_iff, ne_eq, ite_not, DropMonitor.current]
  rw [State.formEntry, tag]
  cases op.kind <;> rfl

theorem State.formEntry_isPosted (s : State) (op : Translated) (row : Nat) :
    (s.formEntry op row).isPosted = s.postable op := by
  cases h : s.postable op <;> simp [State.formEntry, Entry.isPosted, h]

/-- Acceptance while no hold is in force: no tag, no report to the Drop Monitor (R46, R97). -/
theorem State.accept_calm {s : State} {op : Translated} (row : Nat) (h : s.drop.state = .calm) :
    s.accept op row = { s with
      front := s.front.accepted (s.postable op)
      queue := { s.queue with entries := s.queue.entries ++ [s.formEntry op row], reserved := none } } := by
  have untagged : (s.formEntry op row).dropTag = none := by rw [State.formEntry_eq, h]; rfl
  rw [State.accept]
  dsimp only
  rw [untagged, State.formEntry_isPosted]
  rfl

/-- Acceptance under a hold: the current drop counts the entry (R97). -/
theorem State.accept_held {s : State} {op : Translated} (row : Nat) (h : s.drop.state ≠ .calm) :
    s.accept op row = { s with
      front := s.front.accepted (s.postable op)
      queue := { s.queue with entries := s.queue.entries ++ [s.formEntry op row], reserved := none }
      drop := { s.drop with
        pending := updateTagged s.drop.counter (Drop.accepted (s.postable op)) s.drop.pending } } := by
  have tagged : (s.formEntry op row).dropTag = some s.drop.counter := by rw [State.formEntry_eq]; exact if_neg h
  rw [State.accept]
  dsimp only
  rw [tagged, State.formEntry_isPosted]
  rfl

theorem exec_endStrobe_accepts {s : State} {op : Translated} {next row : Nat} (hs : s.control.state = .service)
    (hf : s.front.state = .receiving op next) (hp : op.path = .queue row ∨ op.path = .profile row) :
    exec .endStrobe s = .next (s.accept op row).offerAnew := by
  rcases hp with hp | hp <;> simp [exec, execEnd, State.not_frontIgnored_of_service hs, hf, hp]

/-- In SERVICE commits are allowed exactly while no hold is in force (R48). -/
theorem State.offerAnew_calm {s : State} (hs : s.control.state = .service) (h : s.drop.state = .calm) :
    s.offerAnew = s.settled := by
  simp [State.offerAnew, State.commitsAllowed, hs, DropMonitor.hold, h]

theorem State.offerAnew_held {s : State} (hs : s.control.state = .service) (h : s.drop.state ≠ .calm) :
    s.offerAnew = s := by
  simp [State.offerAnew, State.commitsAllowed, hs, DropMonitor.hold, h]

/-- Settles O15. -/
theorem endFormsTheEntry : Obligations.EndFormsTheEntry := by
  intro s op next row hs hf _ hp
  refine ⟨s.postable op, s.formEntry op row, State.postable_iff, s.formEntry_eq op row, fun hcalm => ?calm,
    fun hheld => ?held⟩
  case calm =>
    have accepted := State.accept_calm (op := op) row hcalm
    rw [exec_endStrobe_accepts hs hf hp, State.offerAnew_calm (by rwa [accepted]) (by rwa [accepted]), accepted]
    rfl
  case held =>
    have accepted := State.accept_held (op := op) row hheld
    rw [exec_endStrobe_accepts hs hf hp, State.offerAnew_held (by rwa [accepted]) (by rwa [accepted]), accepted]
    rfl

end Sys2Proof.Machine
end

section
/-! The media side (04): transfers, the lines, and the end of a media operation (R38, R39, R65, R72, R73, R74, R185). -/

namespace Sys2Proof.Machine

/-! ### The shared lines (R65) -/

section Lines

variable {s : State} {d : Die} {op : MediaOp} {waiting : List Die}

theorem State.hasLines_iff : s.hasLines d = true ↔ s.media.lines.head? = some d := by
  simp [State.hasLines]

theorem State.hasLines_of_lines (h : s.media.lines = d :: waiting) : s.hasLines d = true := by
  rw [State.hasLines_iff, h]
  rfl

theorem State.releaseLines_eq (h : s.media.lines = d :: waiting) :
    s.releaseLines = s.withMedia { s.media with lines := waiting } := by
  rw [State.releaseLines, h]
  rfl

/-- A die in its busy interval neither has the lines nor waits for them. -/
theorem State.SchedulerLaw.not_mem_lines_of_busy {start : Tick} {timeoutMs elapsed : Nat} (h : s.SchedulerLaw)
    (hd : s.die d = .busy op) (hp : op.phase = .busy start timeoutMs elapsed) : d ∉ s.media.lines :=
  h.not_mem_lines (by rw [hd, DieState.inTransfer, hp]; rfl)

/-- The one transfer that has become ready joins those that wait. -/
theorem State.setPhase_handLines {phase : Phase} {lines : List Die} (h : s.SchedulerLaw) (hp : phase.isTransfer = true)
    (hw : ∀ e, e ≠ d → (e ∈ lines ↔ e ∈ s.media.lines)) (hd : d ∉ lines) :
    ((s.withMedia { s.media with lines := lines }).setPhase d op phase).handLines = { s with media := { s.media with
      lines := lines ++ [d]
      dies := s.media.dies.set d
        { state := .busy { op with phase := phase }, patience := (s.media.dies.get d).patience } } } := by
  rw [← State.joins_eq (op := op) h hp hw hd]
  rfl

/-! ### The commands that end a phase -/

theorem exec_commandTransferEnd_command (hd : s.die d = .busy op) (hp : op.phase = .command)
    (hl : s.media.lines = d :: waiting) : exec (.commandTransferEnd d) s =
      .next (s.releaseLines.setPhase d op (.busy s.tick s.control.settings.dieTimeoutMs 0)) := by
  simp [exec, execCommandTransferEnd, hd, hp, State.hasLines_of_lines hl]

section Busy

variable {start : Tick} {timeoutMs elapsed : Nat}

theorem exec_mrdySeenHigh_read (hd : s.die d = .busy op) (hp : op.phase = .busy start timeoutMs elapsed)
    (hk : op.kind = .read) : exec (.mrdySeenHigh d) s = .next (s.setPhase d op .readout).handLines := by
  simp [exec, execMrdySeenHigh, hd, hp, hk]

theorem exec_mrdySeenHigh_write (hd : s.die d = .busy op) (hp : op.phase = .busy start timeoutMs elapsed)
    (hk : op.kind = .program ∨ op.kind = .erase) :
    exec (.mrdySeenHigh d) s = .next (s.setPhase d op (.status [])).handLines := by
  rcases hk with hk | hk <;> simp [exec, execMrdySeenHigh, hd, hp, hk]

theorem exec_mrdySeenHigh_reset (hd : s.die d = .busy op) (hp : op.phase = .busy start timeoutMs elapsed)
    (hk : op.kind = .reset) : exec (.mrdySeenHigh d) s = .next (s.completeMedia d op (.pass []) []) := by
  simp [exec, execMrdySeenHigh, hd, hp, hk]

end Busy

theorem exec_readoutEnd_readout (page : Page) (hd : s.die d = .busy op) (hp : op.phase = .readout)
    (hl : s.media.lines = d :: waiting) : exec (.readoutEnd d page) s =
      .next (s.releaseLines.setPhase d op (.status (normalizePage page))).handLines := by
  simp [exec, execReadoutEnd, hd, hp, State.hasLines_of_lines hl]

theorem exec_mediaOperationComplete_status {data : Page} (status : Byte) (hd : s.die d = .busy op)
    (hp : op.phase = .status data) (hl : s.media.lines = d :: waiting) : exec (.mediaOperationComplete d status) s =
      .next (s.releaseLines.completeMedia d op (statusResult status data) data) := by
  simp [exec, execMediaOperationComplete, hd, hp, State.hasLines_of_lines hl]

end Lines

/-! ### The strobes of a transfer (R38, R65, R185) -/

theorem ofNat_mod_256 (n : Nat) : BitVec.ofNat 8 (n % 256) = BitVec.ofNat 8 n :=
  BitVec.eq_of_toNat_eq (by simp)

theorem mediaAddress_eq (row : Nat) : mediaAddress row =
    [BitVec.ofNat 8 (row % 1048576 / 65536), BitVec.ofNat 8 (row % 1048576 / 256 % 256),
     BitVec.ofNat 8 (row % 1048576 % 256), 0#8, 0#8] := by
  rw [ofNat_mod_256, ofNat_mod_256, mediaAddress]

theorem MediaOp.transfer_row {op : MediaOp} {row : Nat} (hp : op.phase = .command) (hr : op.row = some row) :
    op.transfer = .operation op.kind.operation.byte :: (mediaAddress row).map MediaStrobe.address ++ op.commandTail := by
  rw [MediaOp.transfer, hp]
  dsimp only
  rw [MediaOp.commandTransfer, hr]

/-- An image's bytes are sent from column 0 to column 4223. -/
theorem MediaOp.commandTail_program {op : MediaOp} (hk : op.kind = .program) :
    op.commandTail = (List.range 4224).map (fun c => .data (readCell op.image c)) ++ [.endStrobe] := by
  rw [MediaOp.commandTail, hk]
  dsimp only
  rw [pageBytes_eq, List.map_map]
  simp only [Function.comp_def, Nat.zero_add]

theorem State.msel_iff {s : State} {d : Die} : s.msel d = true ↔ ∃ op, s.die d = .busy op := by
  cases h : s.die d <;> simp [State.msel, h]

/-- Settles O17. -/
theorem transfersFollowThePhases : Obligations.TransfersFollowThePhases := by
  refine ⟨fun d s op waiting hd hp hl => ?command, fun d s op start timeoutMs elapsed h hd hp =>
    ⟨fun phase hphase => ?ready, fun hk => ?probe⟩, fun d page s op waiting h hd hp hl => ?readout,
    fun s d waiting op hl hd => ?lines, fun op row => ?strobes, fun op => ⟨fun hp => ?take, fun data hp => ?status⟩,
    fun s d => State.msel_iff⟩
  case command =>
    rw [exec_commandTransferEnd_command hd hp hl, State.releaseLines_eq hl]
    rfl
  case ready =>
    have away := h.not_mem_lines_of_busy hd hp
    have joins (hready : phase.isTransfer = true) := State.setPhase_handLines (op := op) h hready (fun _ _ => Iff.rfl) away
    rcases hphase with ⟨hk, rfl⟩ | ⟨hk, rfl⟩
    · rw [exec_mrdySeenHigh_read hd hp hk, ← joins rfl]
      rfl
    · rw [exec_mrdySeenHigh_write hd hp hk, ← joins rfl]
      rfl
  case probe =>
    rw [exec_mrdySeenHigh_reset hd hp hk]
    rfl
  case readout =>
    have once := h.once
    rw [hl] at once
    refine ⟨normalizePage page, fun c hwf => readCell_normalizePage hwf c, normalizePage_canonical page, ?_⟩
    rw [exec_readoutEnd_readout page hd hp hl, State.releaseLines_eq hl,
      State.setPhase_handLines h rfl (fun e he => by simp [hl, he]) (List.nodup_cons.1 once).1]
  case lines => rw [State.lineTransfer, hl]; dsimp only; rw [hd]
  case strobes =>
    intro within address hp
    have addressed : (mediaAddress row).map MediaStrobe.address = address := by rw [mediaAddress_eq]; rfl
    refine ⟨fun hr => ⟨fun hk => ?_, fun hk => ?_, fun hk => ?_⟩, fun hr hk => ?_⟩
    · rw [MediaOp.transfer_row hp hr, addressed, MediaOp.commandTail, hk, List.append_nil]
      rfl
    · rw [MediaOp.transfer_row hp hr, addressed, MediaOp.commandTail_program hk, hk, List.append_assoc]
      rfl
    · rw [MediaOp.transfer_row hp hr, addressed, MediaOp.commandTail, hk]
      rfl
    · rw [MediaOp.transfer, hp]
      dsimp only
      rw [MediaOp.commandTransfer, hr, MediaOp.commandTail, hk]
      rfl
  case take => rw [MediaOp.transfer, hp]
  case status => rw [MediaOp.transfer, hp]; rfl

/-! ### The end of a media operation (R39, R72) -/

/-- An operation that passed leaves its die IDLE and the failure count as it was. -/
theorem State.completeMedia_pass (s : State) (d : Die) (op : MediaOp) (bytes data : Page) :
    s.completeMedia d op (.pass bytes) data =
      ((s.withDie d .idle).handResult d op.requester (.pass bytes) data).settled := rfl

/-- A failure counts, and the die is IDLE all the same. -/
theorem State.completeMedia_fail (s : State) (d : Die) (op : MediaOp) (cause : FailCause) (data : Page) :
    s.completeMedia d op (.fail cause) data =
      ((s.withDie d .idle).countFailure.handResult d op.requester (.fail cause) data).settled := rfl

/-- Settles O18. -/
theorem mediaOperationCompletes : Obligations.MediaOperationCompletes := by
  intro d status s op data waiting hd hp hl media
  rw [exec_mediaOperationComplete_status status hd hp hl, State.releaseLines_eq hl, statusResult]
  refine ⟨fun hpass => ?pass, fun hfail => ?fail⟩
  case pass =>
    rw [if_neg (by rw [hpass]; exact Bool.false_ne_true), State.completeMedia_pass]
    rfl
  case fail =>
    rw [if_pos hfail, State.completeMedia_fail]
    rfl

end Sys2Proof.Machine
end

section
/-! Results of media operations (03, 04): the composed front read, and commits that pass or fail (R27, R50, R51, R52, R53,
R59, R60, R61). -/

namespace Sys2Proof.Machine

/-! ### The front read (R27, R60, R61) -/

theorem State.frontReadDone_loading {s : State} {row column : Nat} (h : s.front.state = .loading row column) (base : Page)
    (failed : Bool) : s.frontReadDone base failed = s.deliver row column base failed := by
  rw [State.frontReadDone, h]

theorem afterErase_eq_none_iff {block : Nat} {entries : List Entry} :
    afterErase block entries = none ↔ ∀ e ∈ entries, ¬ (e.kind = .erase ∧ e.block = block) := by
  refine ⟨afterErase_none, fun h => ?_⟩
  cases ha : afterErase block entries with
  | none => rfl
  | some young =>
    obtain ⟨older, e, rfl, he, -⟩ := (afterErase_some_iff block entries young).1 ha
    exact absurd he (h e (by simp))

/-- Over a queued ERASE of the row's block the erased image is composed with the entries younger than it (R59). -/
theorem HoldQueue.composed_over_erase {q : HoldQueue} {row : Nat} {younger : List Entry} (base : Page)
    (h : afterErase (row / 128) q.entries = some younger) : q.composed row base = composeOver [] row younger := by
  rw [HoldQueue.composed, h]

theorem HoldQueue.composed_over_base {q : HoldQueue} {row : Nat} (base : Page)
    (h : afterErase (row / 128) q.entries = none) : q.composed row base = composeOver base row q.entries := by
  rw [HoldQueue.composed, h]

/-- Settles O20. -/
theorem frontReadIsComposed : Obligations.FrontReadIsComposed := by
  refine ⟨fun s d row column result data => ⟨rfl, fun hf => ?delivered⟩,
    fun block entries => ⟨afterErase_eq_none_iff, fun young => ?after⟩,
    fun base row entries c hb he => readCell_composeOver row c hb he, pageBytes_eq, fun q row base c hb he => ?composed⟩
  case delivered =>
    rw [State.handResult, State.frontReadDone_loading hf]
    cases result <;> rfl
  case after => exact afterErase_some_iff block entries young
  case composed =>
    cases ha : afterErase (row / 128) q.entries with
    | none =>
      refine ⟨base, q.entries, ⟨[], rfl⟩, .inr ⟨rfl, rfl⟩, afterErase_none ha, ?_⟩
      rw [HoldQueue.composed_over_base base ha, readCell_composeOver row c hb he]
    | some younger =>
      obtain ⟨older, e, hq, ⟨hk, hblock⟩, hy⟩ := (afterErase_some_iff _ _ _).1 ha
      refine ⟨[], younger, ⟨older ++ [e], by simp [hq]⟩, .inl ⟨older, e, hq, hk, hblock, rfl⟩, hy, ?_⟩
      rw [HoldQueue.composed_over_erase base ha, readCell_composeOver row c Page.canonical_nil]
      exact fun x hx => he x (by simp [hq, hx])

/-! ### The entry a commit's result takes out of the queue (R50, R51) -/

/-- The front once an entry with this result has left (R31, R35, R50, R51). -/
def FrontPort.released (f : FrontPort) (e : Entry) (passed : Bool) : FrontPort :=
  match e.disposition with
  | .posted => f
  | .awaiting .attached => { f with state := .idle, fail := !passed }
  | .awaiting .detached => if f.state = .awaiting then { f with state := .idle } else f

theorem State.releaseFront_eq (s : State) (e : Entry) (passed : Bool) :
    s.releaseFront e passed = s.withFront (s.front.released e passed) := by
  unfold State.releaseFront FrontPort.released
  cases e.disposition with
  | posted => rfl
  | awaiting a =>
    cases a with
    | attached => rfl
    | detached => dsimp only; split <;> rfl

section Released

variable {f : FrontPort} {e : Entry} (passed : Bool)

theorem FrontPort.released_posted (h : e.disposition = .posted) : f.released e passed = f := by
  rw [FrontPort.released, h]

theorem FrontPort.released_attached (h : e.disposition = .awaiting .attached) :
    f.released e passed = { f with state := .idle, fail := !passed } := by
  rw [FrontPort.released, h]

theorem FrontPort.released_detached (h : e.disposition = .awaiting .detached) :
    f.released e passed = if f.state = .awaiting then { f with state := .idle } else f := by
  rw [FrontPort.released, h]

/-- An entry that is not attached reports nothing to the front: a detached one only ends the wait. -/
theorem FrontPort.released_not_attached (h : e.disposition ≠ .awaiting .attached) : f.released e passed =
    if e.disposition = .awaiting .detached ∧ f.state = .awaiting then { f with state := .idle } else f := by
  cases hd : e.disposition with
  | posted => rw [FrontPort.released_posted passed hd]; simp
  | awaiting a =>
    cases a with
    | attached => exact absurd hd h
    | detached => rw [FrontPort.released_detached passed hd]; simp

end Released

section Oldest

variable {s : State} {d : Die} {older younger : List Entry} {e : Entry}

/-- A commit's result is that of the die's oldest entry, which leaves the queue. -/
theorem State.commitDone_pass (hq : s.queue.entries = older ++ e :: younger) (he : rowOnDie d e.row = true)
    (ho : ∀ x ∈ older, rowOnDie d x.row = false) (data : Page) :
    s.commitDone d (.pass data) = (s.withQueue { s.queue with entries := older ++ younger }).passCommit e := by
  obtain ⟨hfind, hremove, -⟩ := oldest_split (younger := younger) he ho
  rw [State.commitDone, HoldQueue.oldest, hq, hfind, ← hremove]

theorem State.commitDone_fail (hq : s.queue.entries = older ++ e :: younger) (he : rowOnDie d e.row = true)
    (ho : ∀ x ∈ older, rowOnDie d x.row = false) (cause : FailCause) :
    s.commitDone d (.fail cause) = (s.withQueue { s.queue with entries := older ++ younger }).failCommit e cause := by
  obtain ⟨hfind, hremove, -⟩ := oldest_split (younger := younger) he ho
  rw [State.commitDone, HoldQueue.oldest, hq, hfind, ← hremove]

end Oldest

theorem FailedRow.covers_eq (r : FailedRow) (row : Nat) : r.covers row =
    (decide (r.block = row / 128) && (decide (r.page = none) || decide (r.page = some (row % 128)))) := by
  rw [Bool.eq_iff_iff]
  simp [FailedRow.covers]

theorem clearFailed_program {table : List FailedRow} {e : Entry} (h : e.kind = .program) : clearFailed table e =
    table.filter (fun r =>
      !(decide (r.block = e.row / 128) && (decide (r.page = none) || decide (r.page = some (e.row % 128))))) := by
  simp only [clearFailed, h, FailedRow.covers_eq]

theorem clearFailed_erase {table : List FailedRow} {e : Entry} (h : e.kind = .erase) : clearFailed table e =
    table.filter (fun r => decide (r.block ≠ e.row / 128)) := by
  rw [clearFailed, h]
  refine List.filter_congr fun r _ => ?_
  rw [Bool.eq_iff_iff]
  simp [Entry.block]

/-! ### A commit that passes (R50, R53) -/

/-- What has happened once the entry is out and counted and the front released, before the Drop Monitor is told. -/
def State.passed (s : State) (e : Entry) : State := { s with
  queue := { s.queue with failedRows := clearFailed s.queue.failedRows e }
  front := s.front.released e true
  control := s.countedLeaving true }

theorem State.passCommit_eq (s : State) (e : Entry) : s.passCommit e = (s.passed e).afterPass e := by
  rw [State.passCommit]
  dsimp only
  rw [State.countLeaving_eq, State.releaseFront_eq]
  rfl

section AfterPass

variable {s : State} {e : Entry}

theorem State.applyCommitted_plain (h : e.profileFlag = false ∨ e.kind = .erase) : s.applyCommitted e = s := by
  rw [State.applyCommitted, if_neg]
  rintro ⟨hflag, hkind⟩
  rcases h with h | h
  · rw [h] at hflag; cases hflag
  · rw [h] at hkind; cases hkind

theorem State.applyCommitted_profile (hf : e.profileFlag = true) (hk : e.kind = .program) :
    s.applyCommitted e = s.serviceApply e.image (e.row % 128) := if_pos ⟨hf, hk⟩

theorem State.afterPass_plain (h : e.profileFlag = false ∨ e.kind = .erase) :
    s.afterPass e = s.dropDeparted e.dropTag .committed := by
  rw [State.afterPass, if_neg, State.applyCommitted_plain h]
  rintro ⟨hflag, hkind, -⟩
  rcases h with h | h
  · rw [h] at hflag; cases hflag
  · rw [h] at hkind; cases hkind

theorem State.afterPass_untagged (hf : e.profileFlag = true) (hk : e.kind = .program) (ht : e.dropTag = none) :
    s.afterPass e = s.serviceApply e.image (e.row % 128) := by
  rw [State.afterPass, if_neg (fun h => h.2.2 ht), ht, State.applyCommitted_profile hf hk]
  rfl

/-- Both could produce a record: either comes first. -/
theorem State.afterPass_tagged (hf : e.profileFlag = true) (hk : e.kind = .program) (ht : e.dropTag ≠ none) :
    s.afterPass e =
      ((s.withFree (s.free + 1)).dropDeparted e.dropTag .committed).serviceApply e.image (e.row % 128) ∨
    s.afterPass e =
      ((s.withFree (s.free + 1)).serviceApply e.image (e.row % 128)).dropDeparted e.dropTag .committed := by
  rw [State.afterPass, if_pos ⟨hf, hk, ht⟩]
  dsimp only
  rw [State.applyCommitted_profile hf hk, State.applyCommitted_profile hf hk]
  split
  · exact .inl rfl
  · exact .inr rfl

end AfterPass

/-- Settles O21. -/
theorem passedCommitLeavesTheQueue : Obligations.PassedCommitLeavesTheQueue := by
  intro s d older younger e data hq he ho
  have handed : s.handResult d .commit (.pass data) data =
      ((s.withQueue { s.queue with entries := older ++ younger }).passed e).afterPass e := by
    rw [State.handResult, State.commitDone_pass hq he ho, State.passCommit_eq]
  rw [handed]
  exact ⟨clearFailed s.queue.failedRows e, s.front.released e true, clearFailed_program, clearFailed_erase,
    FrontPort.released_posted true, FrontPort.released_attached true, FrontPort.released_detached true,
    State.afterPass_plain, State.afterPass_untagged, State.afterPass_tagged⟩

/-! ### A commit that fails (R51, R52) -/

theorem Entry.isAttached_iff {e : Entry} : e.isAttached = true ↔ e.disposition = .awaiting .attached := by
  simp [Entry.isAttached]

theorem Entry.failedRow_eq (e : Entry) :
    e.failedRow = { block := e.row / 128, page := if e.kind = .erase then none else some (e.row % 128) } := by
  cases h : e.kind <;> simp [Entry.failedRow, h, Entry.block, Entry.pageOfRow]

/-- A write that is not carried out: its row joins the table, a COMMIT_FAIL record is produced, and the Drop Monitor is told
last (R51, R52, R55). -/
theorem State.reportUnwritten_eq {s : State} {e : Entry} {table : List FailedRow} {overflow : Bool}
    (cause : CommitFailCause) (way : Departure) (h : addFailed s.queue.failedRows
      { block := e.row / 128, page := if e.kind = .erase then none else some (e.row % 128) } = (table, overflow)) :
    s.reportUnwritten e cause way = State.dropDeparted (State.record { s with
      queue := { s.queue with failedRows := table }
      control := { s.control with rowOverflow := s.control.rowOverflow || overflow } }
      (.commitFail { kind := e.kind, block := e.row / 128
                     page := if e.kind = .erase then none else some (e.row % 128), cause := cause
                     awaiting := decide (e.disposition ≠ .posted), origin := e.origin, dropTag := e.dropTag
                     acceptTick := e.acceptTick, overflow := overflow })) e.dropTag way := by
  have awaiting : (!e.isPosted) = decide (e.disposition ≠ .posted) := (decide_not ..).symm
  rw [State.reportUnwritten]
  dsimp only
  rw [State.addFailedRow, Entry.failRecord, Entry.failedRow_eq, h, awaiting]
  rfl

/-- An attached entry reports to the front alone. -/
theorem State.failCommit_attached {s : State} {e : Entry} (cause : FailCause) (h : e.disposition = .awaiting .attached) :
    s.failCommit e cause = State.dropDeparted { s with
      front := { s.front with state := .idle, fail := true }, control := s.countedLeaving false } e.dropTag .failed := by
  rw [State.failCommit, if_pos (Entry.isAttached_iff.2 h), State.countLeaving_eq, State.releaseFront_eq,
    FrontPort.released_attached _ h]
  rfl

theorem State.countedLeaving_rowOverflow (s : State) (passed : Bool) :
    (s.countedLeaving passed).rowOverflow = s.control.rowOverflow := by
  unfold State.countedLeaving
  split <;> rfl

/-- Any other entry is reported by its row and a COMMIT_FAIL record. -/
theorem State.failCommit_unwritten {s : State} {e : Entry} {table : List FailedRow} {overflow : Bool} (cause : FailCause)
    (ha : e.disposition ≠ .awaiting .attached) (h : addFailed s.queue.failedRows
      { block := e.row / 128, page := if e.kind = .erase then none else some (e.row % 128) } = (table, overflow)) :
    s.failCommit e cause = State.dropDeparted (State.record { s with
      queue := { s.queue with failedRows := table }
      front := s.front.released e false
      control := { s.countedLeaving false with rowOverflow := s.control.rowOverflow || overflow } }
      (.commitFail { kind := e.kind, block := e.row / 128
                     page := if e.kind = .erase then none else some (e.row % 128), cause := cause.toCommitFail
                     awaiting := decide (e.disposition ≠ .posted), origin := e.origin, dropTag := e.dropTag
                     acceptTick := e.acceptTick, overflow := overflow })) e.dropTag .failed := by
  have reported := State.reportUnwritten_eq cause.toCommitFail .failed
    (s := { s with front := s.front.released e false, control := s.countedLeaving false }) h
  rw [State.failCommit, if_neg (by rwa [Entry.isAttached_iff]), State.countLeaving_eq, State.releaseFront_eq,
    ← s.countedLeaving_rowOverflow false]
  exact reported

/-- Settles O22. -/
theorem failedCommitIsReported : Obligations.FailedCommitIsReported := by
  intro s d older younger e cause data hq he ho
  have handed : s.handResult d .commit (.fail cause) data =
      (s.withQueue { s.queue with entries := older ++ younger }).failCommit e cause := by
    rw [State.handResult, State.commitDone_fail hq he ho]
  rw [handed]
  refine ⟨fun ha => State.failCommit_attached cause ha, fun ha => ?unwritten⟩
  case unwritten =>
    obtain ⟨table, overflow, hadd⟩ : ∃ table overflow, addFailed s.queue.failedRows
        { block := e.row / 128, page := if e.kind = .erase then none else some (e.row % 128) } = (table, overflow) :=
      ⟨_, _, rfl⟩
    refine ⟨_, table, overflow, rfl, hadd, ?_⟩
    rw [State.failCommit_unwritten
        (s := s.withQueue { s.queue with entries := older ++ younger }) cause ha hadd,
      FrontPort.released_not_attached false ha]
    cases cause <;> rfl

end Sys2Proof.Machine
end

section
/-! What a grant, a failure at once and a probe passed at once do (R39, R49, R67, R69, R75, R77, R135, R140, R146). -/

namespace Sys2Proof.Machine

/-- In FLUSHING a start takes one unit of the budget (R135). -/
theorem State.spendUnit_eq (s : State) : s.spendUnit = s.withControl { s.control with
    budget := if s.control.state = .flushing then s.control.budget - 1 else s.control.budget } := by
  unfold State.spendUnit
  split <;> rfl

theorem WriteKind.media_eq (kind : WriteKind) : kind.media = if kind = .erase then .erase else .program := by
  cases kind <;> rfl

/-- A start at a die whose patience counter has just been set. -/
theorem State.withPatience_startMedia (s : State) (d : Die) (patience : Nat) (kind : MediaKind) (row : Option Nat)
    (image : Page) (requester : Requester) :
    (s.withPatience d patience).startMedia d kind row image requester = { s with media := { s.media with
      dies := s.media.dies.set d
        { state := .busy { kind := kind, row := row, image := image, requester := requester, phase := .command }
          patience := patience } } } := by
  simp only [State.startMedia, State.withDie, State.withPatience, State.withMedia, PerDie.get_set_self, PerDie.set_set]

/-- A commit that starts (R49, R69, R135). -/
theorem State.startCommit_oldest {s : State} {d : Die} {older younger : List Entry} {e : Entry}
    (hq : s.queue.entries = older ++ e :: younger) (he : rowOnDie d e.row = true)
    (ho : ∀ x ∈ older, rowOnDie d x.row = false) : s.startCommit d e = { s with
      queue := { s.queue with entries := older ++ { e with progress := .committing } :: younger }
      control := { s.control with
        budget := if s.control.state = .flushing then s.control.budget - 1 else s.control.budget }
      media := { s.media with
        dies := s.media.dies.set d
          { state := .busy { kind := e.kind.media, row := some e.row, image := e.image
                             requester := .commit, phase := .command }
            patience := 0 } } } := by
  obtain ⟨-, -, hupdate⟩ := oldest_split (younger := younger) he ho
  rw [State.startCommit, hq, hupdate]
  dsimp only
  rw [State.spendUnit_eq, State.withPatience_startMedia]
  rfl

/-- A front read that starts beside a waiting commit counts in the patience counter (R68, R69). -/
theorem State.perform_front (s : State) (d : Die) (row : Nat) (contested : Bool) :
    s.perform (.grant d (.front row contested)) = { s with media := { s.media with
      frontRead := none
      dies := s.media.dies.set d
        { state := .busy { kind := .read, row := some row, image := [], requester := .front false, phase := .command }
          patience := if contested then (s.media.dies.get d).patience + 1 else (s.media.dies.get d).patience } } } := by
  cases contested with
  | false => rfl
  | true =>
    exact State.withPatience_startMedia (s.withMedia { s.media with frontRead := none }) d
      ((s.media.dies.get d).patience + 1) .read (some row) [] (.front false)

/-- An OPENED note goes to the next note page, which is then used (R140, R146). -/
theorem State.startService_openedNote {s : State} {d : Die} {r : ServiceRequest} {page : Nat} (hr : r.op = .openedNote)
    (hp : s.control.nextNotePage = some page) : s.startService d r =
      (((s.takeRequest r).startMedia d .program (some (noteRow1 page)) s.composeOpenedNote (.service r)).withControl
        { s.control with nextNotePage := some (page + 1) }) := by
  have row : s.serviceRow .openedNote = some (noteRow1 page) := by rw [State.serviceRow, hp]; rfl
  have used : s.control.nextNotePage.map (· + 1) = some (page + 1) := by rw [hp]; rfl
  rw [State.startService, hr, ← used]
  dsimp only
  rw [row]
  rfl

/-- Settles O24. -/
theorem requestsAreGrantedOrFailAtOnce : Obligations.RequestsAreGrantedOrFailAtOnce := by
  refine ⟨fun s d older younger e hq he ho => ?commit, State.perform_front, fun s d r => ?once⟩
  case commit =>
    rw [← WriteKind.media_eq]
    exact State.startCommit_oldest hq he ho
  case once =>
    intro taken begun failures
    refine ⟨fun page hr => ?profileRead, fun page hr => ?noteRead, fun hr => ?noteErase, fun page hr hp => ?openedNote,
      fun hr => ⟨?startProbe, rfl⟩, fun _ => rfl, fun row => rfl, rfl⟩
    case profileRead => rw [State.perform, State.startService, hr]; rfl
    case noteRead => rw [State.perform, State.startService, hr]; rfl
    case noteErase => rw [State.perform, State.startService, hr]; rfl
    case openedNote => rw [State.perform, State.startService_openedNote hr hp]; rfl
    case startProbe => rw [State.perform, State.startService, hr]; rfl

end Sys2Proof.Machine
end

section
/-! LRST in SERVICE (R36, R54, R69, R182). -/

namespace Sys2Proof.Machine

/-! ### The Drop Monitor's part in a withdrawal (R97) -/

/-- A departure told to the Drop Monitor does not look at the dies, the queue or the sequence. -/
theorem State.dropDeparted_withMedia (s : State) (m : Scheduler) (tag : Option Tick) (way : Departure) :
    (s.dropDeparted tag way).withMedia m = (s.withMedia m).dropDeparted tag way := by
  cases tag with
  | none => rfl
  | some n => by_cases h : s.drop.loaded <;> simp [State.dropDeparted, State.reportDrops, h] <;> rfl

theorem State.dropDeparted_withQueue (s : State) (q : HoldQueue) (tag : Option Tick) (way : Departure) :
    (s.dropDeparted tag way).withQueue q = (s.withQueue q).dropDeparted tag way := by
  cases tag with
  | none => rfl
  | some n => by_cases h : s.drop.loaded <;> simp [State.dropDeparted, State.reportDrops, h] <;> rfl

theorem State.dropDeparted_withSequence (s : State) (q : Sequence) (tag : Option Tick) (way : Departure) :
    (s.dropDeparted tag way).withSequence q = (s.withSequence q).dropDeparted tag way := by
  cases tag with
  | none => rfl
  | some n => by_cases h : s.drop.loaded <;> simp [State.dropDeparted, State.reportDrops, h] <;> rfl

theorem State.dropDeparted_lineProbeNext (s : State) (dies : List Die) (tag : Option Tick) (way : Departure) :
    (s.dropDeparted tag way).lineProbeNext dies = (s.lineProbeNext dies).dropDeparted tag way := by
  cases dies with
  | nil => exact s.dropDeparted_withSequence .lineWait tag way
  | cons d rest =>
    rw [State.lineProbeNext, State.lineProbeNext]
    rw [State.dropDeparted_withSequence, State.request, State.dropDeparted_withMedia]
    simp [State.request]

/-! ### What LRST does to each block -/

/-- The front's operation is abandoned and its latched fields and counters cleared (R36). -/
theorem State.lineFront_eq (s : State) : s.lineFront = { s with
    front := { s.front with
      state := .idle, fail := false, refused := false, posted := false, counters := ⟨0, 0, 0, 0, 0, 0⟩ }
    queue := s.queueReleased
    media := s.mediaReleased
    report := s.reportReleased } := by
  obtain ⟨tick, pins, ⟨state, fail, refused, posted, counters, selected, out⟩, queue, media, drop, gauge, control, report,
    free, pending⟩ := s
  cases state <;> rfl

theorem State.queueReleased_entries (s : State) : s.queueReleased.entries = s.queue.entries := by
  unfold State.queueReleased
  split <;> rfl

theorem State.withdraw_eq_self {s : State} (h : s.queue.entries.any Entry.withdrawable = false) : s.withdraw = s := by
  have none_found : s.queue.entries.find? Entry.withdrawable = none := by
    rw [List.find?_eq_none]
    simpa using h
  rw [State.withdraw, none_found]

theorem HoldQueue.detach_posted {q : HoldQueue} (h : ∀ e ∈ q.entries, e.disposition = .posted) : q.detach = q := by
  rw [HoldQueue.detach, map_detachEntry_posted h]

theorem DieRecord.abandon_offline_iff (r : DieRecord) : r.abandon.state = .offline ↔ r.state = .offline := by
  obtain ⟨state, patience⟩ := r
  cases state with
  | idle => rfl
  | offline => rfl
  | busy op => cases hr : op.requester <;> simp [DieRecord.abandon, hr]

theorem State.mediaReleased_services (s : State) : s.mediaReleased.services = s.media.services := by
  unfold State.mediaReleased
  split <;> rfl

/-- Abandoning a READ takes no die OFFLINE and brings none back. -/
theorem State.mediaReleased_offline_iff (s : State) (d : Die) :
    (s.mediaReleased.dies.get d).state = .offline ↔ s.die d = .offline := by
  unfold State.mediaReleased
  split
  · rw [PerDie.get_map, DieRecord.abandon_offline_iff]; rfl
  · rfl

/-- The blocks of an LRST before its probes are requested, with these entries left in the queue. -/
def State.lineCleared (s : State) (withdrawn : Bool) (entries : List Entry) : State := { s with
  control := { s.control with
    state := .lineReset, lrstTick := s.tick
    lineReset := { committed := 0, failed := 0, withdrawn := withdrawn } }
  front := { s.front with
    state := .idle, fail := false, refused := false, posted := false, counters := ⟨0, 0, 0, 0, 0, 0⟩ }
  queue := { s.queueReleased with entries := entries }
  media := { s.mediaReleased with dies := s.mediaReleased.dies.map (fun r => { r with patience := 0 }) }
  report := s.reportReleased }

/-- The dies an LRST probes (R182). -/
def State.lineProbes (s : State) : List Die :=
  allDies.filter (fun d => decide (d.val < s.control.installed) && decide (s.die d = .offline))

theorem State.lineCleared_offlineDies (s : State) (withdrawn : Bool) (entries : List Entry) :
    (s.lineCleared withdrawn entries).offlineDies = s.lineProbes := by
  refine List.filter_congr fun d _ => ?_
  have offline : (s.lineCleared withdrawn entries).die d = .offline ↔ s.die d = .offline := by
    rw [← s.mediaReleased_offline_iff d, State.die]
    simp [State.lineCleared]
  simp only [offline]
  rfl

theorem exec_lrst_service {s : State} (h : s.control.state = .service) : exec .lrst s = .next s.beginLineReset := by
  simp [exec, execLrst, h]

theorem exec_lrst_ignored {s : State} (h : s.control.state ≠ .service) : exec .lrst s = .next s := by
  cases hs : s.control.state with
  | service => exact absurd hs h
  | _ => simp [exec, execLrst, hs]

/-! ### The three cases of the queue (R54) -/

/-- The queue is detached and the patience counters return to 0 (R54, R69). -/
def State.lineDetached (s : State) : State := (s.withQueue s.queue.detach).withMedia s.media.clearPatience

theorem State.beginLineReset_eq {s front : State} {withdrawn : Bool} (hw : s.queue.entries.any Entry.withdrawable = withdrawn)
    (hf : (s.lineControl withdrawn).lineFront.withdraw = front) :
    s.beginLineReset = (front.lineDetached.lineProbeNext front.lineDetached.offlineDies).settled := by
  subst hw hf
  rfl

theorem State.dropDeparted_lineDetached (s : State) (tag : Option Tick) (way : Departure) :
    (s.dropDeparted tag way).lineDetached = s.lineDetached.dropDeparted tag way := by
  rw [State.lineDetached, State.dropDeparted_withQueue, State.dropDeparted_withMedia]
  simp [State.lineDetached]

theorem State.dropDeparted_offlineDies (s : State) (tag : Option Tick) (way : Departure) :
    (s.dropDeparted tag way).offlineDies = s.offlineDies := by
  obtain ⟨-, -, -, -, media, -, control, -, -⟩ := s.dropDeparted_frame tag way
  unfold State.offlineDies State.isInstalled State.die
  rw [media, control]

section Cases

variable {s : State} {older : List Entry} {e : Entry}

theorem State.lineFront_queue (withdrawn : Bool) : (s.lineControl withdrawn).lineFront.queue = s.queueReleased := by
  rw [State.lineFront_eq]
  rfl

theorem State.lineFront_entries (withdrawn : Bool) :
    (s.lineControl withdrawn).lineFront.queue.entries = s.queue.entries := by
  rw [State.lineFront_queue, State.queueReleased_entries]

/-- The blocks once the front is cleared, the queue detached and the patience counters are 0. -/
theorem State.lineFront_lineDetached {q : HoldQueue} (withdrawn : Bool) {entries : List Entry}
    (hq : q.detach = { s.queueReleased with entries := entries }) :
    ((s.lineControl withdrawn).lineFront.withQueue q).lineDetached = s.lineCleared withdrawn entries := by
  rw [State.lineDetached, State.withQueue_queue, hq, State.lineFront_eq]
  rfl

/-- With no entry to withdraw, the entries left are those of the detached queue. -/
theorem State.beginLineReset_keeps {entries : List Entry} (hw : s.queue.entries.any Entry.withdrawable = false)
    (hd : s.queueReleased.detach = { s.queueReleased with entries := entries }) :
    s.beginLineReset = ((s.lineCleared false entries).lineProbeNext s.lineProbes).settled := by
  have kept : (s.lineControl false).lineFront.withdraw = (s.lineControl false).lineFront.withQueue s.queueReleased := by
    rw [State.withdraw_eq_self (by rw [State.lineFront_entries, hw]), ← State.lineFront_queue false, State.withQueue_self]
  rw [State.beginLineReset_eq hw kept, State.lineFront_lineDetached false hd, State.lineCleared_offlineDies]

/-- An attached entry still WAITING behind POSTED entries is withdrawn. -/
theorem State.beginLineReset_withdraws (hq : s.queue.entries = older ++ [e]) (ho : ∀ x ∈ older, x.disposition = .posted)
    (he : e.withdrawable = true) : s.beginLineReset =
      (((s.lineCleared true older).lineProbeNext s.lineProbes).dropDeparted e.dropTag .withdrawn).settled := by
  have left := State.withdraw_youngest ((State.lineFront_entries true).trans hq) ho he
  rw [State.lineFront_queue] at left
  have posted : ({ s.queueReleased with entries := older } : HoldQueue).detach =
      { s.queueReleased with entries := older } := HoldQueue.detach_posted ho
  rw [State.beginLineReset_eq ((any_withdrawable_youngest hq ho).trans he) left, State.dropDeparted_lineDetached,
    State.lineFront_lineDetached true posted, State.dropDeparted_offlineDies, State.lineCleared_offlineDies,
    State.dropDeparted_lineProbeNext]

end Cases

/-- Settles O42. -/
theorem lineResetBegins : Obligations.LineResetBegins := by
  refine ⟨fun s => exec_lrst_ignored, fun s hs => ?_⟩
  intro probes begun
  have begun_eq (withdrawn : Bool) (entries : List Entry) :
      (s.lineCleared withdrawn entries).lineProbeNext s.lineProbes = begun withdrawn entries := by
    change (s.lineCleared withdrawn entries).lineProbeNext probes = begun withdrawn entries
    dsimp only [begun]
    rw [← s.mediaReleased_services]
    cases probes with
    | nil => rw [List.append_nil]; rfl
    | cons d rest => rfl
  rw [exec_lrst_service hs]
  refine ⟨fun hposted => ?posted, fun older e hq ho => ⟨fun hd hp => ?waiting, fun a hd ha => ?stays⟩⟩
  case posted =>
    have detached : s.queueReleased.detach = { s.queueReleased with entries := s.queue.entries } := by
      rw [HoldQueue.detach_posted (by rwa [State.queueReleased_entries]), ← State.queueReleased_entries]
    rw [State.beginLineReset_keeps (any_withdrawable_posted hposted) detached, begun_eq]
  case waiting =>
    rw [State.beginLineReset_withdraws hq ho (Entry.withdrawable_iff.2 ⟨hd, hp⟩), begun_eq]
  case stays =>
    have kept := (any_withdrawable_youngest hq ho).trans (Entry.not_withdrawable hd ha)
    rw [State.beginLineReset_keeps kept (HoldQueue.detach_youngest (s.queueReleased_entries.trans hq) ho hd), begun_eq]

end Sys2Proof.Machine
end

section
/-! Where the queue and the sequences stand (R44, R45, R66) at every step: the law as stated is not inductive. -/

namespace Sys2Proof.Machine

/-- The note erase of a dip recovery is awaited and in progress at die 0; at die 1 the die timeout of a probe has passed whose
result only the note state takes. R148 has only note writes stand so, which the law does not say, so this state is lawful. -/
def probeBesideNoteErase : State :=
  { State.reset with
    control := { Controller.powerOn with state := .spent, sequence := .openedErase .dipRecovery, nextNotePage := some 127 }
    media := { Scheduler.powerOn with
      dies :=
        ⟨⟨.busy { kind := .erase, row := some 128, image := []
                  requester := .service { op := .noteErase, standing := .awaited }, phase := .busy 0 50 10 }, 0⟩,
         ⟨.busy { kind := .reset, row := none, image := []
                  requester := .service { op := .probe 1, standing := .noteOnly }, phase := .busy 0 50 500 }, 0⟩,
         ⟨.idle, 0⟩, ⟨.idle, 0⟩⟩ }
    pending := [.dieTimeout 1] }

theorem probeBesideNoteErase_requests : probeBesideNoteErase.serviceRequests =
    [{ op := .noteErase, standing := .awaited }, { op := .probe 1, standing := .noteOnly }] := rfl

theorem probeBesideNoteErase_sequenceLaw : probeBesideNoteErase.SequenceLaw where
  stands := rfl
  single := by decide
  awaited := by
    simp only [probeBesideNoteErase_requests, List.mem_cons, List.not_mem_nil, or_false]
    rintro r (rfl | rfl) awaited
    · rfl
    · cases awaited
  place := by
    intro d r h
    fin_cases d <;> cases h <;> rfl
  flush := by simp [probeBesideNoteErase_requests]
  supply := fun _ => nofun

theorem probeBesideNoteErase_queueLaw : probeBesideNoteErase.QueueLaw where
  rres := by decide
  posted := by decide
  length := by decide
  awaiting := nofun
  front := nofun
  empty _ := rfl
  idle _ := rfl
  scan := nofun
  note := nofun
  sequence := probeBesideNoteErase_sequenceLaw

/-- The probe's failure is taken as that of a note write of a stopped recovery (`State.oldNoteWritten`): the note block is lost
and the recovery goes on to SERVICE without a note, while the erase it awaited is still in progress. -/
theorem step_probeBesideNoteErase : ∃ t, step probeBesideNoteErase = .next t ∧ t.control.sequence = .none ∧
    { op := .noteErase, standing := .awaited } ∈ t.serviceRequests :=
  ⟨_, rfl, by decide, by decide⟩

/-- Refutes O53: `probeBesideNoteErase` is lawful, and after its step a request is awaited while no sequence runs. It is no
state of a run from power-on, where only note writes stand as `.noteOnly`; O39 has that as a premise and this law does not. -/
theorem not_queueLawIsKept : ¬ Obligations.QueueLawIsKept := by
  intro kept
  obtain ⟨t, ht, ended, inProgress⟩ := step_probeBesideNoteErase
  have law : t.QueueLaw := kept _ t probeBesideNoteErase_queueLaw ht
  have awaits := law.sequence.awaited _ inProgress rfl
  rw [ended] at awaits
  exact awaits

end Sys2Proof.Machine
end

section
/-! The Drop Monitor's table against the queue's drop tags (R46, R83 to R104): what its operations keep of the numbers, the
conditions, the timers and the outstanding counts. -/

namespace Sys2Proof.Machine

/-! ### Consecutive numbers (R83, R98, R152) -/

/-- The numbers are consecutive and end at the counter. -/
def Numbered (counter : Tick) (l : List Tick) : Prop :=
  ∀ i n, l[i]? = some n → n = counter - BitVec.ofNat 32 (l.length - 1 - i)

namespace Numbered

variable {counter : Tick} {l : List Tick}

theorem nil : Numbered counter [] := nofun

/-- The oldest numbers may leave. -/
theorem suffix {gone : List Tick} (h : Numbered counter (gone ++ l)) : Numbered counter l := by
  intro i n hi
  have place := h (gone.length + i) n (by rw [List.getElem?_append_right (by omega)]; simpa using hi)
  rwa [List.length_append, show gone.length + l.length - 1 - (gone.length + i) = l.length - 1 - i by omega] at place

/-- The next number joins. -/
theorem snoc (h : Numbered counter l) : Numbered (counter + 1) (l ++ [counter + 1]) := by
  intro i n hi
  rw [List.length_append, List.length_singleton, Nat.add_sub_cancel]
  rcases Nat.lt_trichotomy i l.length with hlt | rfl | hgt
  · rw [List.getElem?_append_left hlt] at hi
    rw [h i n hi, show l.length - i = l.length - 1 - i + 1 by omega, BitVec.ofNat_add]
    change counter - _ = counter + 1 - (_ + 1)
    ring
  · simp only [List.getElem?_concat_length, Option.some.injEq] at hi
    simp [← hi]
  · rw [List.getElem?_eq_none (by simp; omega)] at hi
    cases hi

/-- Every number and the counter move by one base (R103). -/
theorem add (h : Numbered counter l) (base : Tick) : Numbered (counter + base) (l.map (· + base)) := by
  intro i n hi
  rw [List.getElem?_map, Option.map_eq_some_iff] at hi
  obtain ⟨m, hm, rfl⟩ := hi
  rw [h i m hm, List.length_map]
  ring

/-- How far a number lies before the counter says where it stands. -/
theorem distance (h : Numbered counter l) (hl : l.length ≤ 4294967296) {i : Nat} {n : Tick} (hi : l[i]? = some n) :
    (counter - n).toNat = l.length - 1 - i := by
  have place := h i n hi
  have inside : i < l.length := (List.getElem?_eq_some_iff.1 hi).1
  subst place
  rw [sub_sub_cancel, BitVec.toNat_ofNat, Nat.mod_eq_of_lt (by omega)]

/-- Numbers before the counter lie within the length of the list. -/
theorem distance_lt (h : Numbered counter l) (hl : l.length ≤ 4294967296) {n : Tick} (hn : n ∈ l) :
    (counter - n).toNat < l.length := by
  obtain ⟨i, hi⟩ := List.mem_iff_getElem?.1 hn
  have inside : i < l.length := (List.getElem?_eq_some_iff.1 hi).1
  rw [h.distance hl hi]
  omega

/-- The numbers increase in the order of numbering. -/
theorem pairwise (h : Numbered counter l) (hl : l.length ≤ 4294967296) :
    l.Pairwise (fun a b => (counter - b).toNat < (counter - a).toNat) := by
  rw [List.pairwise_iff_getElem]
  intro i j hi hj hij
  rw [h.distance hl (List.getElem?_eq_getElem hi), h.distance hl (List.getElem?_eq_getElem hj)]
  omega

end Numbered

/-! ### Drops that an operation leaves alike -/

/-- The second drop has the number, the condition and the outstanding count of the first, and lists no onset too many. -/
structure Drop.Alike (x y : Drop) : Prop where
  number : y.number = x.number
  condition : y.condition = x.condition
  outstanding : y.outstanding = x.outstanding
  onsets : x.onsets.length ≤ 8 → y.onsets.length ≤ 8

theorem Drop.Alike.refl (x : Drop) : x.Alike x := ⟨rfl, rfl, rfl, id⟩

theorem Drop.Alike.trans {x y z : Drop} (h : x.Alike y) (h' : y.Alike z) : x.Alike z :=
  ⟨h'.number.trans h.number, h'.condition.trans h.condition, h'.outstanding.trans h.outstanding,
    fun hx => h'.onsets (h.onsets hx)⟩

theorem Drop.beginOnset_alike (stamp : Tick) (x : Drop) : x.Alike (x.beginOnset stamp) where
  number := rfl
  condition := rfl
  outstanding := rfl
  onsets h := by
    unfold Drop.beginOnset
    dsimp only
    split
    · simpa using by omega
    · exact h

theorem Drop.endOnset_alike (start stop : Tick) (x : Drop) : x.Alike (x.endOnset start stop) :=
  ⟨rfl, rfl, rfl, fun h => by simpa [Drop.endOnset] using h⟩

theorem Drop.keepWidth_alike (width : Nat) (x : Drop) : x.Alike (x.keepWidth width) := ⟨rfl, rfl, rfl, id⟩

theorem Drop.addImpact_alike (x : Drop) : x.Alike x.addImpact := ⟨rfl, rfl, rfl, id⟩

theorem Drop.impactInFall_alike (stamp : Tick) (latency : Nat) (x : Drop) : x.Alike (x.impactInFall stamp latency) := by
  unfold Drop.impactInFall
  split
  · exact x.addImpact_alike
  · split
    · exact ⟨rfl, rfl, rfl, id⟩
    · exact x.addImpact_alike

/-- A reopened drop differs from the merged one in its condition alone, as far as the laws see. -/
theorem Drop.merge_alike (edge : DropEdge) (stamp : Tick) (powerDip : Bool) (x : Drop) :
    Drop.Alike { x with condition := .opened } (x.merge edge stamp powerDip) := by
  cases edge with
  | ffall =>
    have begun := Drop.beginOnset_alike stamp { x with condition := .opened }
    exact ⟨rfl, rfl, rfl, begun.onsets⟩
  | fimp => exact ⟨rfl, rfl, rfl, id⟩

/-- The youngest drop as its close leaves it, once its onset and its impact measurement have ended (R91). -/
def Drop.closedAt (stamp : Tick) (ceiling : Bool) (x : Drop) : Drop :=
  { x with condition := .closed stamp, ceilingMark := x.ceilingMark || ceiling }

/-- The table is alike drop for drop. -/
abbrev AlikeTable (a b : List Drop) : Prop := List.Forall₂ Drop.Alike a b

theorem AlikeTable.refl (l : List Drop) : AlikeTable l l := List.forall₂_same.2 fun x _ => Drop.Alike.refl x

theorem AlikeTable.map {f : Drop → Drop} (hf : ∀ x : Drop, x.Alike (f x)) (l : List Drop) : AlikeTable l (l.map f) :=
  List.forall₂_map_right_iff.2 (List.forall₂_same.2 fun x _ => hf x)

theorem AlikeTable.youngest {f : Drop → Drop} (hf : ∀ x : Drop, x.Alike (f x)) (l : List Drop) :
    AlikeTable l (updateYoungest f l) := by
  rcases List.eq_nil_or_concat l with rfl | ⟨older, x, rfl⟩
  · exact .nil
  · rw [List.concat_eq_append, updateYoungest_append]
    exact List.rel_append (AlikeTable.refl older) (.cons (hf x) .nil)

/-- A table alike has the same numbers, conditions and outstanding counts in the same order. -/
theorem AlikeTable.map_eq {α : Type} {g : Drop → α} (hg : ∀ x y, Drop.Alike x y → g y = g x) {a b : List Drop}
    (h : AlikeTable a b) : b.map g = a.map g := by
  induction h with
  | nil => rfl
  | cons hxy _ ih => rw [List.map_cons, List.map_cons, hg _ _ hxy, ih]

theorem AlikeTable.onsets {a b : List Drop} (h : AlikeTable a b) (ha : ∀ x ∈ a, x.onsets.length ≤ 8) :
    ∀ y ∈ b, y.onsets.length ≤ 8 := by
  induction h with
  | nil => nofun
  | cons hxy _ ih =>
    rw [List.forall_mem_cons] at ha ⊢
    exact ⟨hxy.onsets ha.1, ih ha.2⟩

/-- An operation on the drop with a tag leaves alone what it leaves alone of every drop. -/
theorem map_updateTagged {α : Type} {tag : Tick} {f : Drop → Drop} {g : Drop → α} (hg : ∀ x, g (f x) = g x)
    (l : List Drop) : (updateTagged tag f l).map g = l.map g := by
  rw [updateTagged, List.map_map]
  refine List.map_congr_left fun x _ => ?_
  dsimp only [Function.comp]
  split
  · exact hg x
  · rfl

/-! ### The table and its timers -/

namespace DropMonitor

/-- The half of the monitor's law that speaks of the table. -/
structure TableLaw (d : DropMonitor) : Prop where
  length : d.pending.length ≤ 4
  numbers : Numbered d.counter (d.pending.map Drop.number)
  older : ∀ c ∈ (d.pending.map Drop.condition).dropLast, c ≠ .opened
  calm : d.state = .calm → ∀ c ∈ d.pending.map Drop.condition, c ≠ .opened
  opened : d.state ≠ .calm → (d.pending.map Drop.condition).getLast? = some .opened
  onsets : ∀ x ∈ d.pending, x.onsets.length ≤ 8

/-- The half of the monitor's law that speaks of the timers (R82, R87, R91). -/
structure TimerLaw (d : DropMonitor) : Prop where
  calm : d.state = .calm → d.mergeTimer = .stopped ∧ d.settleTimer = .stopped ∧ d.ceilingTimer = .stopped
  falling : d.state = .falling → d.settleTimer = .stopped
  settling : d.state = .settling → d.mergeTimer = .stopped ∧ d.settleTimer ≠ .stopped
  ceiling : d.state ≠ .calm → d.ceilingTimer ≠ .stopped

theorem numbered_iff {d : DropMonitor} : Numbered d.counter (d.pending.map Drop.number) ↔
    ∀ i x, d.pending[i]? = some x → x.number = d.counter - BitVec.ofNat 32 (d.pending.length - 1 - i) := by
  unfold Numbered
  simp only [List.getElem?_map, Option.map_eq_some_iff, List.length_map]
  exact ⟨fun h i x hx => h i _ ⟨x, hx, rfl⟩, fun h i n ⟨x, hx, hn⟩ => hn ▸ h i x hx⟩

theorem lawful_iff {d : DropMonitor} : d.Lawful ↔ d.TableLaw ∧ d.TimerLaw := by
  have older : (∀ x ∈ d.pending.dropLast, x.isClosed) ↔
      ∀ c ∈ (d.pending.map Drop.condition).dropLast, c ≠ .opened := by
    rw [← List.map_dropLast, List.forall_mem_map]
    rfl
  have calm : (∀ x ∈ d.pending, x.isClosed) ↔ ∀ c ∈ d.pending.map Drop.condition, c ≠ .opened := by
    rw [List.forall_mem_map]
    rfl
  have opened : (∃ x, d.pending.getLast? = some x ∧ x.condition = .opened) ↔
      (d.pending.map Drop.condition).getLast? = some .opened := by
    rw [List.getLast?_map, Option.map_eq_some_iff]
  constructor
  · intro h
    exact ⟨⟨h.length, numbered_iff.2 h.numbers, older.1 h.older, fun hs => calm.1 (h.calm hs),
      fun hs => opened.1 (h.opened hs), h.onsets⟩, ⟨h.timersCalm, h.timersFalling, h.timersSettling, h.ceiling⟩⟩
  · rintro ⟨t, m⟩
    exact ⟨t.length, numbered_iff.1 t.numbers, older.2 t.older, fun hs => calm.2 (t.calm hs),
      fun hs => opened.2 (t.opened hs), m.calm, m.falling, m.settling, m.ceiling, t.onsets⟩

/-- A table alike under the same counter keeps its law, in CALM as outside it. -/
theorem TableLaw.alike {d d' : DropMonitor} (h : d.TableLaw) (ht : AlikeTable d.pending d'.pending)
    (hc : d'.counter = d.counter) (hs : d'.state = .calm ↔ d.state = .calm) : d'.TableLaw := by
  have numbers := ht.map_eq (g := Drop.number) fun _ _ h => h.number
  have conditions := ht.map_eq (g := Drop.condition) fun _ _ h => h.condition
  refine ⟨ht.length_eq ▸ h.length, ?_, ?_, ?_, ?_, ht.onsets h.onsets⟩
  · rw [hc, numbers]
    exact h.numbers
  · rw [conditions]
    exact h.older
  · rw [conditions]
    exact fun hcalm => h.calm (hs.1 hcalm)
  · rw [conditions]
    exact fun hcalm => h.opened fun hd => hcalm (hs.2 hd)

/-! ### Entries outstanding (R46, R97) -/

/-- The monitor's law, with the drop tags of the entries that each outstanding count stands for, oldest entry first. -/
structure Accounts (d : DropMonitor) (tags : List Tick) : Prop where
  table : d.TableLaw
  timers : d.TimerLaw
  outstanding : ∀ x ∈ d.pending, x.outstanding = tags.count x.number
  named : ∀ n ∈ tags, n ∈ d.pending.map Drop.number
  order : tags.Pairwise d.AsYoung

theorem Accounts.distance {d : DropMonitor} {tags : List Tick} (h : d.Accounts tags) {n : Tick} (hn : n ∈ tags) :
    (d.counter - n).toNat < 4 := by
  have length := h.table.length
  have := h.table.numbers.distance_lt (by rw [List.length_map]; omega) (h.named n hn)
  rw [List.length_map] at this
  omega

/-- What an operation of the Drop Monitor keeps: the account of the entries, the numbers of the drops as they follow those
reported, and whether the counter is loaded. -/
structure Keeps (d d' : DropMonitor) : Prop where
  accounts : ∀ tags, d.Accounts tags → d'.Accounts tags
  numbered : ∀ l, Numbered d.counter (l ++ d.pending.map Drop.number) →
    Numbered d'.counter (l ++ d'.pending.map Drop.number)
  loaded : d'.loaded = d.loaded

theorem Keeps.refl (d : DropMonitor) : d.Keeps d := ⟨fun _ => id, fun _ => id, rfl⟩

theorem Keeps.trans {d d' d'' : DropMonitor} (h : d.Keeps d') (h' : d'.Keeps d'') : d.Keeps d'' :=
  ⟨fun tags ha => h'.accounts tags (h.accounts tags ha), fun l hl => h'.numbered l (h.numbered l hl),
    h'.loaded.trans h.loaded⟩

/-- The account is kept where the table keeps its numbers and counts and the laws of table and timers hold again. -/
theorem keeps_of_counts {d d' : DropMonitor} (hc : d'.counter = d.counter ∧ d'.loaded = d.loaded)
    (hn : d'.pending.map (fun x => (x.number, x.outstanding)) = d.pending.map (fun x => (x.number, x.outstanding)))
    (ht : d.TableLaw → d'.TableLaw) (hm : d.TimerLaw → d'.TimerLaw) : d.Keeps d' := by
  obtain ⟨hc, hl⟩ := hc
  have numbers : d'.pending.map Drop.number = d.pending.map Drop.number := by
    simpa only [List.map_map, Function.comp_def] using congrArg (List.map Prod.fst) hn
  refine ⟨fun tags h => ⟨ht h.table, hm h.timers, fun y hy => ?_, numbers ▸ h.named, ?_⟩, ?_, hl⟩
  · have same : (y.number, y.outstanding) ∈ d.pending.map (fun x => (x.number, x.outstanding)) :=
      hn ▸ List.mem_map_of_mem hy
    obtain ⟨x, hx, e⟩ := List.mem_map.1 same
    obtain ⟨en, eo⟩ := Prod.mk.inj e
    rw [← en, ← eo]
    exact h.outstanding x hx
  · exact h.order.imp fun {a b} hab => by unfold AsYoung at hab ⊢; rwa [hc]
  · rw [hc, numbers]
    exact fun _ => id

/-- An operation that leaves the table alike keeps the account, where the timers follow the state. -/
theorem keeps_of_alike {d d' : DropMonitor} (ht : AlikeTable d.pending d'.pending)
    (hf : d'.counter = d.counter ∧ d'.loaded = d.loaded) (hs : d'.state = .calm ↔ d.state = .calm)
    (hm : d.TimerLaw → d'.TimerLaw) : d.Keeps d' :=
  keeps_of_counts hf (ht.map_eq fun _ _ h => by rw [h.number, h.outstanding]) (fun h => h.alike ht hf.1 hs) hm

theorem TimerLaw.of_eq {d d' : DropMonitor} (h : d.TimerLaw) (hs : d'.state = d.state)
    (hm : d'.mergeTimer = d.mergeTimer ∧ d'.settleTimer = d.settleTimer ∧ d'.ceilingTimer = d.ceilingTimer) :
    d'.TimerLaw := by
  obtain ⟨h1, h2, h3⟩ := hm
  refine ⟨?_, ?_, ?_, ?_⟩ <;> rw [hs]
  · rw [h1, h2, h3]; exact h.calm
  · rw [h2]; exact h.falling
  · rw [h1, h2]; exact h.settling
  · rw [h3]; exact h.ceiling

/-! ### Onsets, impacts and timers (R85 to R94) -/

theorem keeps_endOnset (d : DropMonitor) (stamp : Tick) : d.Keeps (d.endOnset stamp) := by
  unfold DropMonitor.endOnset
  split
  · exact .refl d
  · exact keeps_of_alike (.youngest (Drop.endOnset_alike _ _) _) ⟨rfl, rfl⟩ Iff.rfl fun h => h.of_eq rfl ⟨rfl, rfl, rfl⟩

theorem keeps_endImpact (d : DropMonitor) (stamp : Tick) : d.Keeps (d.endImpact stamp) := by
  unfold DropMonitor.endImpact
  split
  · exact .refl d
  · exact keeps_of_alike (.youngest (Drop.keepWidth_alike _) _) ⟨rfl, rfl⟩ Iff.rfl fun h => h.of_eq rfl ⟨rfl, rfl, rfl⟩

@[simp] theorem endOnset_state (d : DropMonitor) (stamp : Tick) : (d.endOnset stamp).state = d.state := by
  unfold DropMonitor.endOnset
  split <;> rfl

theorem keeps_rise (d : DropMonitor) (stamp : Tick) : d.Keeps (d.rise stamp) := by
  unfold DropMonitor.rise
  split
  · exact .refl d
  next hs =>
    refine keeps_of_alike (.youngest (Drop.beginOnset_alike stamp) _) ⟨rfl, rfl⟩ Iff.rfl fun h => ?_
    exact ⟨fun hc => (nomatch hs.symm.trans hc), h.falling, fun hc => (nomatch hs.symm.trans hc), h.ceiling⟩
  next hs =>
    refine keeps_of_alike (.youngest (fun x => ?_) _) ⟨rfl, rfl⟩ (by simp [hs]) fun h => ?_
    · have begun := Drop.beginOnset_alike stamp x
      exact ⟨begun.number, begun.condition, begun.outstanding, begun.onsets⟩
    · exact ⟨nofun, fun _ => rfl, nofun, fun _ => h.ceiling (by simp [hs])⟩

/-- The settle timer starts, in a state outside CALM (R87). -/
theorem keeps_settle {d : DropMonitor} (hs : d.state ≠ .calm) (params : DropParams) : d.Keeps (d.settle params) :=
  keeps_of_alike (.refl _) ⟨rfl, rfl⟩ ⟨nofun, fun h => absurd h hs⟩
    fun h => ⟨nofun, nofun, fun _ => ⟨rfl, nofun⟩, fun _ => h.ceiling hs⟩

theorem keeps_fallInFalling {d : DropMonitor} (hs : d.state = .falling) (stamp : Tick) (params : DropParams) :
    d.Keeps (d.fallInFalling stamp params) := by
  have ended := d.keeps_endOnset stamp
  have state : (d.endOnset stamp).state = .falling := by rw [endOnset_state, hs]
  unfold DropMonitor.fallInFalling
  dsimp only
  split
  · exact ended.trans (keeps_settle (by simp [hs]) params)
  · refine ended.trans (keeps_of_alike (.refl _) ⟨rfl, rfl⟩ Iff.rfl fun h => ?_)
    exact ⟨fun hc => (nomatch state.symm.trans hc), h.falling, fun hc => (nomatch state.symm.trans hc), h.ceiling⟩

theorem keeps_impactFalling {d : DropMonitor} (hs : d.state = .falling) (stamp : Tick) (params : DropParams) :
    d.Keeps (d.impactFalling stamp params) :=
  keeps_of_alike (.youngest (Drop.impactInFall_alike stamp params.latency) _) ⟨rfl, rfl⟩
    ⟨nofun, fun h => nomatch hs.symm.trans h⟩
    fun h => ⟨nofun, nofun, fun _ => ⟨rfl, nofun⟩, fun _ => h.ceiling (by simp [hs])⟩

theorem keeps_impactSettling {d : DropMonitor} (hs : d.state = .settling) (stamp : Tick) (params : DropParams) :
    d.Keeps (d.impactSettling stamp params) :=
  keeps_of_alike (.youngest Drop.addImpact_alike _) ⟨rfl, rfl⟩ Iff.rfl
    fun h => ⟨fun hc => (nomatch hs.symm.trans hc), fun hc => (nomatch hs.symm.trans hc),
      fun _ => ⟨(h.settling hs).1, nofun⟩, h.ceiling⟩

theorem keeps_markDip (d : DropMonitor) : d.Keeps d.markDip :=
  keeps_of_alike (.map (f := fun x => { x with powerDip := true }) (fun _ => ⟨rfl, rfl, rfl, id⟩) _) ⟨rfl, rfl⟩ Iff.rfl
    fun h => h.of_eq rfl ⟨rfl, rfl, rfl⟩

theorem keeps_advance (d : DropMonitor) : d.Keeps d.advance := by
  have running (x : Timer) : x.advance = .stopped ↔ x = .stopped := by cases x <;> simp [Timer.advance]
  refine keeps_of_alike (.refl _) ⟨rfl, rfl⟩ Iff.rfl fun h => ⟨fun hs => ?_, fun hs => ?_, fun hs => ?_, fun hs => ?_⟩
  · simpa [DropMonitor.advance, running] using h.calm hs
  · simpa [DropMonitor.advance, running] using h.falling hs
  · simpa [DropMonitor.advance, running] using h.settling hs
  · simpa [DropMonitor.advance, running] using h.ceiling hs

/-- What the motion lines keep beside the table, the state and the timers (R93, R102). -/
theorem keeps_stamps (d : DropMonitor) (suspended since : Option Tick) :
    d.Keeps { d with suspended := suspended, ffallSince := since } :=
  keeps_of_alike (.refl _) ⟨rfl, rfl⟩ Iff.rfl fun h => h.of_eq rfl ⟨rfl, rfl, rfl⟩

/-! ### The drop opens and closes (R82 to R84, R91, R99) -/

/-- An operation on the youngest drop alone leaves the numbers and the outstanding counts as they are. -/
theorem map_updateYoungest {α : Type} {f : Drop → Drop} {g : Drop → α} (hg : ∀ x, g (f x) = g x) (l : List Drop) :
    (updateYoungest f l).map g = l.map g := by
  rcases List.eq_nil_or_concat l with rfl | ⟨older, x, rfl⟩ <;> simp [hg]

theorem close_eq_closedAt (d : DropMonitor) (stamp : Tick) (ceiling : Bool) : d.close stamp ceiling =
    { (d.endOnset stamp).endImpact stamp with
      pending := updateYoungest (Drop.closedAt stamp ceiling) ((d.endOnset stamp).endImpact stamp).pending
      state := .calm, mergeTimer := .stopped, settleTimer := .stopped, ceilingTimer := .stopped } := rfl

theorem keeps_close (d : DropMonitor) (stamp : Tick) (ceiling : Bool) : d.Keeps (d.close stamp ceiling) := by
  refine ((d.keeps_endOnset stamp).trans (keeps_endImpact _ stamp)).trans ?_
  rw [close_eq_closedAt]
  generalize (d.endOnset stamp).endImpact stamp = ended
  refine keeps_of_counts ⟨rfl, rfl⟩ (map_updateYoungest (f := Drop.closedAt stamp ceiling) (fun _ => rfl) _) (fun h => ?_)
    fun _ => ⟨fun _ => ⟨rfl, rfl, rfl⟩, nofun, nofun, fun hs => absurd rfl hs⟩
  obtain ⟨length, numbers, older, -, -, onsets⟩ := h
  rcases List.eq_nil_or_concat ended.pending with hp | ⟨rest, x, hp⟩
  · exact ⟨by simp [hp], by simpa [hp] using Numbered.nil, by simp [hp], by simp [hp], fun hs => absurd rfl hs,
      by simp [hp]⟩
  · rw [List.concat_eq_append] at hp
    simp only [hp, List.map_append, List.map_cons, List.map_nil, List.dropLast_concat, List.forall_mem_append,
      List.forall_mem_singleton, List.length_append] at numbers older onsets length
    refine ⟨?_, ?_, ?_, fun _ => ?_, fun hs => absurd rfl hs, ?_⟩
    all_goals
      simp only [hp, updateYoungest_append, List.map_append, List.map_cons, List.map_nil, List.dropLast_concat,
        List.forall_mem_append, List.forall_mem_singleton, List.length_append]
    · exact length
    · exact numbers
    · exact older
    · exact ⟨older, nofun⟩
    · exact onsets

/-- A departure from CALM latches, starts timers and opens a drop (R82, R84): what the table does is R83's or R99's. -/
theorem timerLaw_depart {d : DropMonitor} (h : d.TimerLaw) (hs : d.state = .calm) (edge : DropEdge) (stamp : Tick)
    (params : DropParams) (powerDip : Bool) : (d.depart edge stamp params powerDip).TimerLaw := by
  obtain ⟨merge, settle, -⟩ := h.calm hs
  cases edge with
  | ffall => exact ⟨nofun, fun _ => settle, nofun, fun _ => nofun⟩
  | fimp => exact ⟨nofun, nofun, fun _ => ⟨merge, nofun⟩, fun _ => nofun⟩

theorem depart_state (d : DropMonitor) (edge : DropEdge) (stamp : Tick) (params : DropParams) (powerDip : Bool) :
    (d.depart edge stamp params powerDip).state ≠ .calm := by
  cases edge <;> exact nofun

/-- A new drop takes the next number (R83). -/
theorem depart_opens {d : DropMonitor} (hl : d.pending.length < 4) (edge : DropEdge) (stamp : Tick) (params : DropParams)
    (powerDip : Bool) :
    (d.depart edge stamp params powerDip).counter = d.counter + 1 ∧
    (d.depart edge stamp params powerDip).pending = d.pending ++ [newDrop edge (d.counter + 1) stamp powerDip] := by
  simp [DropMonitor.depart, hl]

/-- With four drops pending the youngest reopens (R99). -/
theorem depart_merges {d : DropMonitor} (hl : ¬ d.pending.length < 4) (edge : DropEdge) (stamp : Tick) (params : DropParams)
    (powerDip : Bool) :
    (d.depart edge stamp params powerDip).counter = d.counter ∧
    (d.depart edge stamp params powerDip).pending = updateYoungest (Drop.merge edge stamp powerDip) d.pending := by
  simp [DropMonitor.depart, hl]

/-- The next number is farther from every number of the table than from itself, and names no entry yet. -/
theorem Accounts.depart_opens {d d' : DropMonitor} {tags : List Tick} {x : Drop} (h : d.Accounts tags)
    (hs : d.state = .calm) (hl : d.pending.length < 4) (hc : d'.counter = d.counter + 1)
    (hp : d'.pending = d.pending ++ [x]) (hx : x.number = d.counter + 1 ∧ x.condition = .opened ∧ x.outstanding = 0 ∧
      x.onsets.length ≤ 8) (hs' : d'.state ≠ .calm) (ht : d'.TimerLaw) : d'.Accounts tags := by
  obtain ⟨number, condition, outstanding, onsets⟩ := hx
  have near : ∀ n ∈ tags, (d.counter + 1 - n).toNat = (d.counter - n).toNat + 1 := by
    intro n hn
    have := h.distance hn
    bv_omega
  refine ⟨⟨?_, ?_, ?_, fun hcalm => absurd hcalm hs', fun _ => ?_, ?_⟩, ht, ?_, ?_, ?_⟩
  · rw [hp, List.length_append, List.length_singleton]
    omega
  · rw [hc, hp, List.map_append, List.map_singleton, number]
    exact h.table.numbers.snoc
  · rw [hp, List.map_append, List.map_singleton, List.dropLast_concat]
    exact h.table.calm hs
  · rw [hp, List.map_append, List.map_singleton, List.getLast?_concat, condition]
  · rw [hp, List.forall_mem_append, List.forall_mem_singleton]
    exact ⟨h.table.onsets, onsets⟩
  · rw [hp, List.forall_mem_append, List.forall_mem_singleton]
    refine ⟨h.outstanding, ?_⟩
    rw [outstanding, number, List.count_eq_zero.2]
    intro hn
    have := near _ hn
    simp at this
  · rw [hp, List.map_append]
    exact fun n hn => List.mem_append_left _ (h.named n hn)
  · refine h.order.imp_of_mem fun {a b} ha hb hab => ?_
    unfold AsYoung at hab ⊢
    rw [hc, near a ha, near b hb]
    omega

theorem keeps_depart {d : DropMonitor} (hs : d.state = .calm) (edge : DropEdge) (stamp : Tick) (params : DropParams)
    (powerDip : Bool) : d.Keeps (d.depart edge stamp params powerDip) := by
  have left := d.depart_state edge stamp params powerDip
  by_cases hl : d.pending.length < 4
  · obtain ⟨hc, hp⟩ := d.depart_opens hl edge stamp params powerDip
    refine ⟨fun tags h => h.depart_opens hs hl hc hp ?_ left (timerLaw_depart h.timers hs _ _ _ _), fun l h => ?_, rfl⟩
    · cases edge <;> exact ⟨rfl, rfl, rfl, by simp [newDrop]⟩
    · rw [hc, hp, List.map_append, ← List.append_assoc]
      have number : (newDrop edge (d.counter + 1) stamp powerDip).number = d.counter + 1 := rfl
      rw [List.map_singleton, number]
      exact h.snoc
  · obtain ⟨hc, hp⟩ := d.depart_merges hl edge stamp params powerDip
    obtain ⟨older, x, hx⟩ : ∃ older x, d.pending = older ++ [x] := by
      rcases List.eq_nil_or_concat d.pending with h | ⟨older, x, h⟩
      · simp [h] at hl
      · exact ⟨older, x, by rw [h, List.concat_eq_append]⟩
    have merged := Drop.merge_alike edge stamp powerDip x
    rw [hx, updateYoungest_append] at hp
    refine keeps_of_counts ⟨hc, rfl⟩ ?_ (fun h => ?_) fun h => timerLaw_depart h hs _ _ _ _
    · rw [hp, hx]
      simp [merged.number, merged.outstanding]
    · have older' := h.calm hs
      have numbers := h.numbers
      have length := h.length
      have onsets := h.onsets
      rw [hx] at older' numbers length onsets
      simp only [List.map_append, List.map_singleton, List.forall_mem_append, List.forall_mem_singleton] at older' onsets
      refine ⟨?_, ?_, ?_, fun hcalm => absurd hcalm left, fun _ => ?_, ?_⟩
      · simpa [hp] using length
      · rw [hc, hp]
        simpa [merged.number] using numbers
      · simpa [hp] using older'.1
      · simpa [hp] using merged.condition
      · rw [hp, List.forall_mem_append, List.forall_mem_singleton]
        exact ⟨onsets.1, merged.onsets onsets.2⟩

/-! ### The load of the counter (R103) and the drops reported (R100) -/

/-- With no entry in the queue the numbers may move. -/
theorem Accounts.load {d : DropMonitor} (h : d.Accounts []) (base : Tick) : (d.load base).Accounts [] := by
  have conditions : (d.load base).pending.map Drop.condition = d.pending.map Drop.condition := by
    simp [DropMonitor.load, Function.comp_def]
  refine ⟨⟨?_, ?_, ?_, ?_, ?_, ?_⟩, h.timers.of_eq rfl ⟨rfl, rfl, rfl⟩, ?_, nofun, .nil⟩
  · simpa [DropMonitor.load] using h.table.length
  · simpa [DropMonitor.load, Function.comp_def] using h.table.numbers.add base
  · rw [conditions]; exact h.table.older
  · rw [conditions]; exact h.table.calm
  · rw [conditions]; exact h.table.opened
  · exact List.forall_mem_map.2 h.table.onsets
  · exact List.forall_mem_map.2 fun x hx => by simpa using h.outstanding x hx

/-- The monitor once the oldest drops that are ready have been reported (R100); none is before the load (R103). -/
def reported (d : DropMonitor) : DropMonitor :=
  if d.loaded then { d with pending := d.pending.dropWhile (fun x => x.ready.isSome) } else d

@[simp] theorem reported_counter (d : DropMonitor) : d.reported.counter = d.counter := by
  unfold reported; split <;> rfl

@[simp] theorem reported_loaded (d : DropMonitor) : d.reported.loaded = d.loaded := by
  unfold reported; split <;> rfl

/-- Drops that are ready leave from the oldest on; the open drop and any with entries outstanding stay. -/
theorem Accounts.passed {d : DropMonitor} {tags : List Tick} (h : d.Accounts tags) {gone rest : List Drop}
    (hp : d.pending = gone ++ rest) (hg : ∀ x ∈ gone, x.isReady) : Accounts { d with pending := rest } tags := by
  have numbers := h.table.numbers
  rw [hp, List.map_append] at numbers
  refine ⟨⟨?_, numbers.suffix, ?_, ?_, ?_, ?_⟩, h.timers.of_eq rfl ⟨rfl, rfl, rfl⟩, ?_, ?_, h.order⟩
  · have length := h.table.length
    rw [hp, List.length_append] at length
    dsimp only
    omega
  · have older := h.table.older
    rw [hp, List.map_append] at older
    dsimp only
    rcases List.eq_nil_or_concat (rest.map Drop.condition) with hr | ⟨front, c, hr⟩
    · rw [hr]; nofun
    · rw [hr, List.concat_eq_append, ← List.append_assoc, List.dropLast_concat] at older
      rw [hr, List.concat_eq_append, List.dropLast_concat]
      exact fun c hc => older c (List.mem_append_right _ hc)
  · intro hs c hc
    refine h.table.calm hs c ?_
    rw [hp, List.map_append]
    exact List.mem_append_right _ hc
  · intro hs
    have opened := h.table.opened hs
    rw [hp, List.map_append, List.getLast?_append] at opened
    dsimp only
    cases hr : (rest.map Drop.condition).getLast? with
    | some c => simpa [hr] using opened
    | none =>
      rw [hr, Option.none_or] at opened
      obtain ⟨x, hx, hc⟩ := List.mem_map.1 (List.mem_of_getLast? opened)
      exact absurd hc (hg x hx).1
  · exact fun x hx => h.table.onsets x (by rw [hp]; exact List.mem_append_right _ hx)
  · exact fun x hx => h.outstanding x (by rw [hp]; exact List.mem_append_right _ hx)
  · intro n hn
    have named := h.named n hn
    rw [hp, List.map_append, List.mem_append] at named
    refine named.resolve_left fun hgone => ?_
    obtain ⟨x, hx, rfl⟩ := List.mem_map.1 hgone
    have count := h.outstanding x (by rw [hp]; exact List.mem_append_left _ hx)
    rw [(hg x hx).2, eq_comm, List.count_eq_zero] at count
    exact count hn

theorem Accounts.reported {d : DropMonitor} {tags : List Tick} (h : d.Accounts tags) : d.reported.Accounts tags := by
  unfold DropMonitor.reported
  split
  · refine h.passed (List.takeWhile_append_dropWhile).symm fun x hx => ?_
    exact (Drop.ready_isSome x).1 (List.mem_takeWhile_imp (p := fun x : Drop => x.ready.isSome) hx)
  · exact h

/-! ### Entries join and leave (R97) -/

/-- A count changes at the drop that a tag names, and nowhere else. -/
theorem Accounts.updateTagged {d : DropMonitor} {tags tags' : List Tick} {tag : Tick} {f : Drop → Drop}
    (h : d.Accounts tags) (hf : ∀ x, (f x).number = x.number ∧ (f x).condition = x.condition ∧ (f x).onsets = x.onsets)
    (ho : ∀ x ∈ d.pending, x.number = tag → (f x).outstanding = tags'.count tag)
    (hother : ∀ n, n ≠ tag → tags'.count n = tags.count n) (hnamed : ∀ n ∈ tags', n ∈ d.pending.map Drop.number)
    (horder : tags'.Pairwise d.AsYoung) : Accounts { d with pending := Machine.updateTagged tag f d.pending } tags' := by
  have numbers : (Machine.updateTagged tag f d.pending).map Drop.number = d.pending.map Drop.number :=
    map_updateTagged (fun x => (hf x).1) _
  have conditions : (Machine.updateTagged tag f d.pending).map Drop.condition = d.pending.map Drop.condition :=
    map_updateTagged (fun x => (hf x).2.1) _
  refine ⟨⟨?_, ?_, ?_, ?_, ?_, ?_⟩, h.timers.of_eq rfl ⟨rfl, rfl, rfl⟩, ?_, ?_, horder⟩
  · simpa using h.table.length
  · exact numbers ▸ h.table.numbers
  · dsimp only; rw [conditions]; exact h.table.older
  · dsimp only; rw [conditions]; exact h.table.calm
  · dsimp only; rw [conditions]; exact h.table.opened
  · refine List.forall_mem_map.2 fun x hx => ?_
    split
    · rw [(hf x).2.2]
      exact h.table.onsets x hx
    · exact h.table.onsets x hx
  · refine List.forall_mem_map.2 fun x hx => ?_
    split
    next hn => rw [ho x hx hn, (hf x).1, hn]
    next hn => rw [h.outstanding x hx, hother _ hn]
  · rw [numbers]; exact hnamed

/-- An entry with the tag leaves the queue. -/
theorem Accounts.departed {d : DropMonitor} {older younger : List Tick} {tag : Tick}
    (h : d.Accounts (older ++ tag :: younger)) (way : Departure) :
    Accounts { d with pending := Machine.updateTagged tag (Drop.departed way) d.pending } (older ++ younger) := by
  have fewer : (older ++ younger).Sublist (older ++ tag :: younger) := (List.sublist_cons_self tag younger).append_left older
  refine h.updateTagged (fun x => ⟨rfl, rfl, rfl⟩) (fun x hx hn => ?_) (fun n hn => ?_)
    (fun n hn => h.named n (fewer.mem hn)) (h.order.sublist fewer)
  · have count := h.outstanding x hx
    rw [hn, List.count_append, List.count_cons_self] at count
    rw [List.count_append]
    change x.outstanding - 1 = _
    omega
  · rw [List.count_append, List.count_append, List.count_cons_of_ne (Ne.symm hn)]

/-- An entry with the tag of the drop in progress joins as youngest (R46). -/
theorem Accounts.accepted {d : DropMonitor} {tags : List Tick} (h : d.Accounts tags) (hs : d.state ≠ .calm) (posted : Bool) :
    Accounts { d with pending := Machine.updateTagged d.counter (Drop.accepted posted) d.pending } (tags ++ [d.counter]) := by
  have current : d.counter ∈ d.pending.map Drop.number := by
    have opened := h.table.opened hs
    rcases List.eq_nil_or_concat (d.pending.map Drop.number) with hp | ⟨older, n, hp⟩
    · rw [List.map_eq_nil_iff] at hp
      simp [hp] at opened
    · have numbers := h.table.numbers
      rw [hp, List.concat_eq_append] at numbers ⊢
      have last := numbers older.length n (by simp)
      rw [List.length_append, List.length_singleton, Nat.add_sub_cancel, Nat.sub_self] at last
      simp [last]
  refine h.updateTagged (fun x => ?_) (fun x hx hn => ?_) (fun n hn => ?_) (fun n hn => ?_) ?_
  · cases posted <;> exact ⟨rfl, rfl, rfl⟩
  · rw [List.count_append, List.count_singleton_self, ← hn, ← h.outstanding x hx]
    cases posted <;> rfl
  · simp [List.count_append, Ne.symm hn]
  · rcases List.mem_append.1 hn with hn | hn
    · exact h.named n hn
    · rwa [List.mem_singleton.1 hn]
  · refine List.pairwise_append.2 ⟨h.order, List.pairwise_singleton _ _, fun a _ b hb => ?_⟩
    rw [List.mem_singleton.1 hb, AsYoung, sub_self]
    exact Nat.zero_le _

end DropMonitor

end Sys2Proof.Machine
end

section
/-! DROP records in the ring (R100, R103, R152), and the commits of the dies (R47, R49): what the operations over the ring and
over the queue's entries keep. -/

namespace Sys2Proof.Machine

/-! ### The DROP records of the ring -/

/-- The drop numbers of the ring's DROP records, oldest first. -/
def ReportMemory.dropNumbers (r : ReportMemory) : List Tick := r.ring.filterMap Record.dropNumber

namespace ReportMemory

theorem makeRoom_dropNumbers (r : ReportMemory) : r.makeRoom.dropNumbers <:+ r.dropNumbers := by
  unfold ReportMemory.makeRoom
  split
  · exact List.suffix_rfl
  next oldest rest hr =>
    split
    · unfold ReportMemory.dropNumbers
      rw [hr]
      exact (List.suffix_cons oldest rest).filterMap _
    · exact List.suffix_rfl

/-- A record of another kind joins: no drop number does. -/
theorem append_dropNumbers (r : ReportMemory) (mask : BitVec 16) (stamp : Tick) {p : Payload} (hp : ∀ x, p ≠ .drop x) :
    (r.append mask stamp p).dropNumbers <:+ r.dropNumbers := by
  have none : Record.dropNumber { number := r.next, count := 1, stamp := stamp, payload := p } = none := by
    cases p with
    | drop x => exact absurd rfl (hp x)
    | _ => rfl
  have same : (r.append mask stamp p).dropNumbers = r.makeRoom.dropNumbers := by
    simp [ReportMemory.append, ReportMemory.evaluate, ReportMemory.dropNumbers, none]
  exact same ▸ r.makeRoom_dropNumbers

theorem append_drop_dropNumbers (r : ReportMemory) (mask : BitVec 16) (stamp : Tick) (x : DropRecord) :
    (r.append mask stamp (.drop x)).dropNumbers = r.makeRoom.dropNumbers ++ [x.number] := by
  simp [ReportMemory.append, ReportMemory.evaluate, ReportMemory.dropNumbers, Record.dropNumber]

theorem coalesce_dropNumber (op : OpKind) (row : BitVec 24) (stamp : Tick) (x : Record) :
    (coalesce op row stamp x).dropNumber = x.dropNumber := by
  unfold coalesce
  split
  next hx => simp [Record.dropNumber, hx]
  all_goals rfl

theorem refuse_dropNumbers (r : ReportMemory) (mask : BitVec 16) (cause : RecordedCause) (op : OpKind) (row : BitVec 24)
    (absolute : Bool) (stamp : Tick) : (r.refuse mask cause op row absolute stamp).dropNumbers <:+ r.dropNumbers := by
  unfold ReportMemory.refuse
  split
  · exact r.append_dropNumbers mask stamp nofun
  · have same (number : Tick) (x : Record) :
        Record.dropNumber (if x.number = number then coalesce op row stamp x else x) = x.dropNumber := by
      split
      · exact coalesce_dropNumber op row stamp x
      · rfl
    unfold ReportMemory.dropNumbers
    rw [List.filterMap_map]
    exact (List.filterMap_congr fun x _ => same _ x) ▸ List.suffix_rfl

theorem release_dropNumbers (r : ReportMemory) (mask : BitVec 16) (through : Tick) :
    (r.release mask through).dropNumbers <:+ r.dropNumbers :=
  (List.drop_suffix _ _).filterMap _

theorem load_dropNumbers (r : ReportMemory) (base : Tick) : (r.load base).dropNumbers = r.dropNumbers := by
  unfold ReportMemory.dropNumbers ReportMemory.load
  rw [List.filterMap_map]
  rfl

end ReportMemory

/-- Drops that are passed on move from the table to the ring, in their order (R100, R152). -/
theorem passReady_dropNumbers (mask : BitVec 16) (stamp : Tick) (l : List Drop) (r : ReportMemory) :
    (passReady mask stamp l r).2.dropNumbers ++ (passReady mask stamp l r).1.map Drop.number <:+
      r.dropNumbers ++ l.map Drop.number := by
  induction l generalizing r with
  | nil => exact List.suffix_rfl
  | cons x rest ih =>
    unfold passReady
    cases hx : x.ready with
    | none => exact List.suffix_rfl
    | some record =>
      have number : record.number = x.number := by
        unfold Drop.ready at hx
        split at hx
        · cases hx
        · split at hx <;> cases hx
          rfl
      refine (ih _).trans ?_
      rw [ReportMemory.append_drop_dropNumbers, number, List.append_assoc, List.map_cons]
      obtain ⟨gone, hgone⟩ := r.makeRoom_dropNumbers
      exact ⟨gone, by rw [← List.append_assoc, hgone]; rfl⟩

/-- The drops left are those from the first that is not ready on. -/
theorem passReady_fst (mask : BitVec 16) (stamp : Tick) (l : List Drop) (r : ReportMemory) :
    (passReady mask stamp l r).1 = l.dropWhile (fun x => x.ready.isSome) := by
  induction l generalizing r with
  | nil => rfl
  | cons x rest ih =>
    unfold passReady
    cases hx : x.ready with
    | none => simp [List.dropWhile, hx]
    | some record => simpa [List.dropWhile, hx] using ih _

theorem State.reportDrops_drop (s : State) : s.reportDrops.drop = s.drop.reported := by
  unfold State.reportDrops DropMonitor.reported
  split
  · simp [passReady_fst]
  · rfl

/-- The half of the law of the DROP records that speaks of their numbers. -/
structure State.NumbersLaw (s : State) : Prop where
  numbers : Numbered s.drop.counter s.dropNumbers
  unloaded : s.drop.loaded = false → s.report.dropNumbers = []

theorem State.dropRecordLaw_iff {s : State} :
    s.DropRecordLaw ↔ s.NumbersLaw ∧ (s.control.sequence.beforeLoad = true → s.drop.loaded = false) :=
  ⟨fun h => ⟨⟨h.numbers, h.unloaded⟩, h.before⟩, fun ⟨h, hb⟩ => ⟨h.numbers, h.unloaded, hb⟩⟩

theorem State.dropNumbers_eq (s : State) : s.dropNumbers = s.report.dropNumbers ++ s.drop.pending.map Drop.number := rfl

theorem State.NumbersLaw.reportDrops {s : State} (h : s.NumbersLaw) : s.reportDrops.NumbersLaw := by
  refine ⟨?_, ?_⟩
  · rw [State.reportDrops_drop, DropMonitor.reported_counter]
    obtain ⟨gone, hgone⟩ : s.reportDrops.dropNumbers <:+ s.dropNumbers := by
      unfold State.reportDrops
      split
      · exact passReady_dropNumbers _ _ _ _
      · exact List.suffix_rfl
    exact Numbered.suffix (hgone ▸ h.numbers)
  · rw [State.reportDrops_drop, DropMonitor.reported_loaded]
    intro hl
    have same : s.reportDrops = s := by simp [State.reportDrops, hl]
    rw [same]
    exact h.unloaded hl

/-- The counter is loaded while no DROP record is in the ring (R103). -/
theorem State.NumbersLaw.loadCounters {s : State} (h : s.NumbersLaw) (hl : s.drop.loaded = false)
    (dropBase sequenceBase : Tick) : (s.loadCounters dropBase sequenceBase).NumbersLaw := by
  refine State.NumbersLaw.reportDrops ⟨?_, nofun⟩
  have numbers := h.numbers
  rw [State.dropNumbers_eq, h.unloaded hl, List.nil_append] at numbers
  rw [State.dropNumbers_eq]
  simpa [ReportMemory.load_dropNumbers, h.unloaded hl, DropMonitor.load, Function.comp_def] using numbers.add dropBase

/-! ### The commits of a die (R47, R49) -/

/-- A die commits the oldest of its entries and no other. -/
def CommitsOldest (committing : Bool) : List Entry → Prop
  | [] => committing = false
  | e :: younger => (committing = true ↔ e.progress = .committing) ∧ ∀ x ∈ younger, x.progress = .waiting

theorem State.commitLaw_iff {s : State} : s.CommitLaw ↔ ∀ d, CommitsOldest (s.die d).committing (s.queue.onDie d) := by
  constructor
  · intro h d
    cases hd : s.queue.onDie d with
    | nil => exact h.absent d hd
    | cons e younger =>
      have waiting := h.younger d
      rw [hd] at waiting
      exact ⟨h.oldest d e (by rw [hd]; rfl), waiting⟩
  · intro h
    refine ⟨fun d e he => ?_, fun d hd => ?_, fun d x hx => ?_⟩
    all_goals have law := h d
    · obtain ⟨younger, hd⟩ := List.head?_eq_some_iff.1 he
      rw [hd] at law
      exact law.1
    · rw [hd] at law
      exact law
    · cases hd : s.queue.onDie d with
      | nil => simp [hd] at hx
      | cons e younger =>
        rw [hd] at law hx
        exact law.2 x hx

/-- A die that commits nothing has every entry WAITING. -/
theorem commitsOldest_false {l : List Entry} : CommitsOldest false l ↔ ∀ x ∈ l, x.progress = .waiting := by
  cases l with
  | nil => simp [CommitsOldest]
  | cons e younger => cases hp : e.progress <;> simp [CommitsOldest, hp]

/-- Entries that are WAITING may leave. -/
theorem CommitsOldest.filter {committing : Bool} {l : List Entry} (h : CommitsOldest committing l) {p : Entry → Bool}
    (hp : ∀ x ∈ l, p x = false → x.progress = .waiting) : CommitsOldest committing (l.filter p) := by
  cases committing with
  | false =>
    rw [commitsOldest_false] at h ⊢
    exact fun x hx => h x (List.mem_filter.1 hx).1
  | true =>
    cases l with
    | nil => cases h
    | cons e younger =>
      have kept : p e = true := by
        by_contra he
        have waiting := hp e List.mem_cons_self (by simpa using he)
        simp [h.1.1 rfl] at waiting
      rw [List.filter_cons_of_pos kept]
      exact ⟨h.1, fun x hx => h.2 x (List.mem_filter.1 hx).1⟩

/-- An entry WAITING joins as youngest. -/
theorem CommitsOldest.snoc {committing : Bool} {l : List Entry} (h : CommitsOldest committing l) {e : Entry}
    (he : e.progress = .waiting) : CommitsOldest committing (l ++ [e]) := by
  cases l with
  | nil => simpa [CommitsOldest, he] using h
  | cons x younger =>
    refine ⟨h.1, fun y hy => ?_⟩
    rcases List.mem_append.1 hy with hy | hy
    · exact h.2 y hy
    · rw [List.mem_singleton.1 hy, he]

/-- Only the rows and the progress of the entries count. -/
theorem CommitsOldest.map {committing : Bool} {l : List Entry} (h : CommitsOldest committing l) {f : Entry → Entry}
    (hf : ∀ x, (f x).progress = x.progress) : CommitsOldest committing (l.map f) := by
  cases l with
  | nil => exact h
  | cons e younger => exact ⟨by rw [hf]; exact h.1, List.forall_mem_map.2 fun x hx => by rw [hf]; exact h.2 x hx⟩

theorem rowOnDie_unique {d d' : Die} {row : Nat} (h : rowOnDie d row = true) (h' : rowOnDie d' row = true) : d = d' := by
  rw [rowOnDie_iff] at h h'
  exact Fin.ext (h.symm.trans h')

/-- The entries of a die, where its oldest is known. -/
theorem HoldQueue.onDie_oldest {q : HoldQueue} {d : Die} {older younger : List Entry} {e : Entry}
    (hq : q.entries = older ++ e :: younger) (he : rowOnDie d e.row = true) (ho : ∀ x ∈ older, rowOnDie d x.row = false) :
    q.onDie d = e :: younger.filter (fun x => rowOnDie d x.row) := by
  have none : older.filter (fun x => rowOnDie d x.row) = [] := List.filter_eq_nil_iff.2 fun x hx => by simp [ho x hx]
  simp [HoldQueue.onDie, hq, List.filter_append, none, he]

theorem HoldQueue.onDie_nil_of_oldest_none {q : HoldQueue} {d : Die} (h : q.oldest d = none) : q.onDie d = [] :=
  List.filter_eq_nil_iff.2 fun x hx => by simpa using List.find?_eq_none.1 h x hx

/-- The entries of the other dies do not change where one die's oldest entry changes or leaves. -/
theorem filter_other_die {d d' : Die} (hd : d' ≠ d) {older younger l : List Entry} {e : Entry} (he : rowOnDie d e.row = true)
    (hl : ∀ x ∈ l, x.row = e.row) : (older ++ (l ++ younger)).filter (fun x => rowOnDie d' x.row) =
      (older ++ e :: younger).filter (fun x => rowOnDie d' x.row) := by
  have other : rowOnDie d' e.row = false := by
    by_contra h
    exact hd (rowOnDie_unique (by simpa using h) he)
  have none : l.filter (fun x => rowOnDie d' x.row) = [] :=
    List.filter_eq_nil_iff.2 fun x hx => by simp [hl x hx, other]
  simp [List.filter_append, none, other]

/-- Every die but one commits its oldest entry; the one commits nothing, and its entries but the oldest are WAITING. -/
structure State.CommitLawBut (s : State) (d : Die) : Prop where
  others : ∀ d', d' ≠ d → CommitsOldest (s.die d').committing (s.queue.onDie d')
  idle : (s.die d).committing = false
  younger : ∀ x ∈ (s.queue.onDie d).tail, x.progress = .waiting

theorem State.CommitLaw.but {s : State} (h : s.CommitLaw) {d : Die} (hd : (s.die d).committing = false) : s.CommitLawBut d :=
  ⟨fun d' _ => State.commitLaw_iff.1 h d', hd, h.younger d⟩

/-- The oldest entry of the die leaves, and every die commits its oldest entry again. -/
theorem State.CommitLawBut.removeOldest {s t : State} {d : Die} (h : s.CommitLawBut d) {e : Entry}
    (ho : s.queue.oldest d = some e) (hq : t.queue.entries = removeOldest d s.queue.entries)
    (hc : ∀ d, (t.die d).committing = (s.die d).committing) : t.CommitLaw := by
  obtain ⟨older, younger, hs, he, hn⟩ := oldest_exists ho
  rw [hs, (oldest_split he hn).2.1] at hq
  refine State.commitLaw_iff.2 fun d' => ?_
  rw [hc]
  by_cases hd : d' = d
  · subst hd
    have waiting := h.younger
    rw [HoldQueue.onDie_oldest hs he hn] at waiting
    have gone : older.filter (fun x => rowOnDie d' x.row) = [] := List.filter_eq_nil_iff.2 fun x hx => by simp [hn x hx]
    rw [h.idle, commitsOldest_false, HoldQueue.onDie, hq, List.filter_append, gone]
    exact waiting
  · have same := filter_other_die hd he (l := []) (older := older) (younger := younger) nofun
    have law := h.others d' hd
    rw [HoldQueue.onDie, hs, ← same] at law
    rwa [HoldQueue.onDie, hq]

/-- A die that commits nothing and has no entry meets the law. -/
theorem State.CommitLawBut.of_oldest_none {s : State} {d : Die} (h : s.CommitLawBut d) (ho : s.queue.oldest d = none) :
    s.CommitLaw := by
  refine State.commitLaw_iff.2 fun d' => ?_
  by_cases hd : d' = d
  · subst hd
    rw [h.idle, HoldQueue.onDie_nil_of_oldest_none ho]
    rfl
  · exact h.others d' hd

/-- A commit starts with the die's oldest entry (R49). -/
theorem State.CommitLaw.startOldest {s t : State} {d : Die} (h : s.CommitLaw) {e : Entry} (ho : s.queue.oldest d = some e)
    (hq : t.queue.entries = updateOldest d commitEntry s.queue.entries) (hd : (t.die d).committing = true)
    (hc : ∀ d', d' ≠ d → (t.die d').committing = (s.die d').committing) : t.CommitLaw := by
  obtain ⟨older, younger, hs, he, hn⟩ := oldest_exists ho
  rw [hs, (oldest_split he hn).2.2] at hq
  refine State.commitLaw_iff.2 fun d' => ?_
  have law := State.commitLaw_iff.1 h d'
  by_cases hdd : d' = d
  · subst hdd
    rw [HoldQueue.onDie_oldest hs he hn] at law
    rw [hd, HoldQueue.onDie_oldest (e := commitEntry e) hq he hn]
    exact ⟨by simp [commitEntry], law.2⟩
  · have same := filter_other_die hdd he (l := [commitEntry e]) (older := older) (younger := younger) (by simp [commitEntry])
    rw [HoldQueue.onDie, hs, ← same] at law
    rw [hc d' hdd, HoldQueue.onDie, hq]
    exact law

end Sys2Proof.Machine
end

section
/-! The failed-row table, the commits, the Drop Monitor's account and the DROP records (R47, R57, R97, R152): the Service
Controller's sequences keep their laws, one lemma per shared operation. -/

namespace Sys2Proof.Machine

/-! ### The Drop Monitor's account of the queue -/

/-- The drop tags of the entries, oldest first. -/
def HoldQueue.tags (q : HoldQueue) : List Tick := q.entries.filterMap Entry.dropTag

theorem HoldQueue.tagged_eq (q : HoldQueue) (number : Tick) : q.tagged number = q.tags.count number := by
  unfold HoldQueue.tagged HoldQueue.tags
  induction q.entries with
  | nil => rfl
  | cons e l ih =>
    cases ht : e.dropTag with
    | none => simp [ht, ih]
    | some n => by_cases hn : n = number <;> simp [ht, ih, hn]

theorem State.dropLaw_iff {s : State} : s.DropLaw ↔ s.drop.Accounts s.queue.tags := by
  have named : (∀ e ∈ s.queue.entries, ∀ n, e.dropTag = some n → ∃ x ∈ s.drop.pending, x.number = n) ↔
      ∀ n ∈ s.queue.tags, n ∈ s.drop.pending.map Drop.number := by
    simp only [HoldQueue.tags, List.mem_filterMap, List.mem_map]
    exact ⟨fun h n ⟨e, he, hn⟩ => h e he n hn, fun h e he n hn => h n ⟨e, he, hn⟩⟩
  constructor
  · intro h
    obtain ⟨table, timers⟩ := DropMonitor.lawful_iff.1 h.monitor
    exact ⟨table, timers, fun x hx => by rw [h.outstanding x hx, HoldQueue.tagged_eq], named.1 h.tags, h.tagOrder⟩
  · intro h
    exact ⟨DropMonitor.lawful_iff.2 ⟨h.table, h.timers⟩, fun x hx => by rw [h.outstanding x hx, HoldQueue.tagged_eq],
      named.2 h.named, h.order⟩

/-- The Service Controller stands where no entry is held: before the load, at the FLUSH note, in STARTING and in SPENT. -/
def Controller.Vacates (c : Controller) : Prop :=
  c.sequence.beforeLoad = true ∨ c.sequence = .flushNote ∨ c.state = .starting ∨ c.state = .spent

/-- The queue is to be empty, for the Service Controller's sake or that of a FLUSH note that waits. -/
def State.Vacant (s : State) : Prop :=
  s.control.Vacates ∨ ∃ r ∈ s.media.services, ∃ image, r.op = .flushNote image

/-- The queue is empty where it is to be, and the Drop Monitor accounts for its tags. Between the consequences of an event
this stands for the queue's law and the drops' law, of which the first need not be kept (O53). -/
structure State.Accounted (s : State) : Prop where
  vacant : s.Vacant → s.queue.entries = []
  accounts : s.drop.Accounts s.queue.tags

/-! ### What an operation keeps -/

/-- The four laws are kept, that of the drops under a premise on the state before. -/
structure State.Keeps (A : Prop) (s t : State) : Prop where
  rows : s.FailedRowLaw → t.FailedRowLaw
  commits : s.CommitLaw → t.CommitLaw
  drops : A → s.Accounted → t.Accounted
  records : s.DropRecordLaw → t.DropRecordLaw

theorem State.Keeps.refl {A : Prop} (s : State) : s.Keeps A s := ⟨id, id, fun _ => id, id⟩

theorem State.Keeps.trans {A : Prop} {s t u : State} (h : s.Keeps A t) (h' : t.Keeps True u) : s.Keeps A u :=
  ⟨fun hs => h'.rows (h.rows hs), fun hs => h'.commits (h.commits hs), fun ha hs => h'.drops trivial (h.drops ha hs),
    fun hs => h'.records (h.records hs)⟩

/-- Tags leave the account, from their place among those before and after; the entries and the dies stay as they are. -/
structure State.Leaves (gone : List Tick) (s t : State) : Prop where
  entries : t.queue.entries = s.queue.entries
  rows : s.FailedRowLaw → t.FailedRowLaw
  committing : ∀ d, (t.die d).committing = (s.die d).committing
  accounts : ∀ older younger, s.drop.Accounts (older ++ (gone ++ younger)) → t.drop.Accounts (older ++ younger)
  numbers : s.NumbersLaw → t.NumbersLaw
  loaded : t.drop.loaded = s.drop.loaded
  vacant : t.Vacant → s.Vacant ∨ s.queue.entries = []
  before : t.control.sequence.beforeLoad = true → s.control.sequence.beforeLoad = true

/-- The entries, the drops and the order of the DROP records stay as they are. -/
structure State.Around (s t : State) : Prop where
  entries : t.queue.entries = s.queue.entries
  rows : s.FailedRowLaw → t.FailedRowLaw
  drop : t.drop = s.drop
  numbers : t.report.dropNumbers <:+ s.report.dropNumbers
  vacant : t.Vacant → s.Vacant ∨ s.queue.entries = []
  before : t.control.sequence.beforeLoad = true → s.control.sequence.beforeLoad = true

/-- And the dies commit what they did. -/
structure State.Beside (s t : State) : Prop extends s.Around t where
  committing : ∀ d, (t.die d).committing = (s.die d).committing

theorem State.Around.trans {s t u : State} (h : s.Around t) (h' : t.Around u) : s.Around u where
  entries := h'.entries.trans h.entries
  rows hs := h'.rows (h.rows hs)
  drop := h'.drop.trans h.drop
  numbers := h'.numbers.trans h.numbers
  vacant hu := (h'.vacant hu).elim h.vacant fun he => .inr (h.entries ▸ he)
  before hu := h.before (h'.before hu)

theorem State.Beside.refl (s : State) : s.Beside s :=
  ⟨⟨rfl, id, rfl, List.suffix_rfl, .inl, id⟩, fun _ => rfl⟩

theorem State.Beside.trans {s t u : State} (h : s.Beside t) (h' : t.Beside u) : s.Beside u :=
  ⟨h.toAround.trans h'.toAround, fun d => (h'.committing d).trans (h.committing d)⟩

theorem State.Around.numbersLaw {s t : State} (h : s.Around t) (hs : s.NumbersLaw) : t.NumbersLaw := by
  obtain ⟨gone, hgone⟩ := h.numbers
  refine ⟨?_, fun hl => ?_⟩
  · have numbers := hs.numbers
    rw [State.dropNumbers_eq, ← hgone, List.append_assoc] at numbers
    rw [h.drop, State.dropNumbers_eq, h.drop]
    exact numbers.suffix
  · have none := hs.unloaded (h.drop ▸ hl)
    rw [← hgone, List.append_eq_nil_iff] at none
    exact none.2

theorem State.Beside.leaves {s t : State} (h : s.Beside t) : s.Leaves [] t :=
  ⟨h.entries, h.rows, h.committing, fun _ _ ha => h.drop ▸ ha, h.numbersLaw, by rw [h.drop], h.vacant, h.before⟩

theorem State.Leaves.trans {gone gone' : List Tick} {s t u : State} (h : s.Leaves gone t) (h' : t.Leaves gone' u) :
    s.Leaves (gone ++ gone') u where
  entries := h'.entries.trans h.entries
  rows hs := h'.rows (h.rows hs)
  committing d := (h'.committing d).trans (h.committing d)
  accounts older younger ha := h'.accounts older younger (h.accounts older (gone' ++ younger) (by simpa using ha))
  numbers hs := h'.numbers (h.numbers hs)
  loaded := h'.loaded.trans h.loaded
  vacant hu := (h'.vacant hu).elim h.vacant fun he => .inr (h.entries ▸ he)
  before hu := h.before (h'.before hu)

theorem State.Leaves.beside {gone : List Tick} {s t u : State} (h : s.Leaves gone t) (h' : t.Beside u) : s.Leaves gone u := by
  simpa using h.trans h'.leaves

theorem State.Beside.leaving {gone : List Tick} {s t u : State} (h : s.Beside t) (h' : t.Leaves gone u) : s.Leaves gone u :=
  h.leaves.trans h'

theorem State.CommitLaw.of_eq {s t : State} (h : s.CommitLaw) (hq : t.queue.entries = s.queue.entries)
    (hc : ∀ d, (t.die d).committing = (s.die d).committing) : t.CommitLaw := by
  rw [State.commitLaw_iff] at h ⊢
  intro d
  rw [hc, HoldQueue.onDie, hq]
  exact h d

theorem State.Leaves.accounted {s t : State} (h : s.Leaves [] t) (hs : s.Accounted) : t.Accounted where
  vacant ht := by
    rw [h.entries]
    exact (h.vacant ht).elim hs.vacant id
  accounts := by
    rw [HoldQueue.tags, h.entries]
    exact h.accounts [] _ hs.accounts

theorem State.Leaves.records {gone : List Tick} {s t : State} (h : s.Leaves gone t) (hs : s.DropRecordLaw) :
    t.DropRecordLaw :=
  State.dropRecordLaw_iff.2 ⟨h.numbers (State.dropRecordLaw_iff.1 hs).1, fun ht => h.loaded ▸ hs.before (h.before ht)⟩

/-- Where no tag leaves the laws are kept. -/
theorem State.Leaves.keeps {A : Prop} {s t : State} (h : s.Leaves [] t) : s.Keeps A t where
  rows := h.rows
  commits hs := hs.of_eq h.entries h.committing
  drops _ := h.accounted
  records := h.records

theorem State.Beside.keeps {A : Prop} {s t : State} (h : s.Beside t) : s.Keeps A t := h.leaves.keeps

/-! ### What a die commits -/

theorem DieRecord.restand_committing (standing : Standing) (r : DieRecord) :
    (r.restand standing).state.committing = r.state.committing := by
  unfold DieRecord.restand
  split
  · rfl
  · rfl
  next op hop =>
    split
    · rfl
    · rfl
    next hr => simp [DieState.committing, hop, hr]

/-! ### Updates of one block -/

namespace State

variable {s : State}

/-- An operation that changes neither the queue, the dies, the requests and the drops nor where the sequence stands. -/
theorem beside_of_eq {t : State} (hq : t.queue = s.queue) (hm : t.media = s.media) (hd : t.drop = s.drop)
    (hc : t.control.state = s.control.state ∧ t.control.sequence = s.control.sequence)
    (hr : t.report.dropNumbers <:+ s.report.dropNumbers) : s.Beside t where
  entries := by rw [hq]
  rows hs := by unfold State.FailedRowLaw; rwa [hq]
  drop := hd
  numbers := hr
  vacant := by
    unfold State.Vacant Controller.Vacates
    rw [hm, hc.1, hc.2]
    exact .inl
  before := by rw [hc.2]; exact id
  committing d := by unfold State.die; rw [hm]

theorem beside_withReport {r : ReportMemory} (hr : r.dropNumbers <:+ s.report.dropNumbers) : s.Beside (s.withReport r) :=
  beside_of_eq rfl rfl rfl ⟨rfl, rfl⟩ hr

theorem beside_record (s : State) {p : Payload} (hp : ∀ x, p ≠ .drop x) : s.Beside (s.record p) :=
  beside_withReport (ReportMemory.append_dropNumbers _ _ _ hp)

theorem beside_withControl {c : Controller} (hc : c.state = s.control.state ∧ c.sequence = s.control.sequence) :
    s.Beside (s.withControl c) :=
  beside_of_eq rfl rfl rfl hc List.suffix_rfl

theorem beside_withGauge (s : State) (g : Gauge) : s.Beside (s.withGauge g) :=
  beside_of_eq rfl rfl rfl ⟨rfl, rfl⟩ List.suffix_rfl

theorem beside_withFront (s : State) (f : FrontPort) : s.Beside (s.withFront f) :=
  beside_of_eq rfl rfl rfl ⟨rfl, rfl⟩ List.suffix_rfl

theorem beside_withFrontState (s : State) (f : FrontState) : s.Beside (s.withFrontState f) := s.beside_withFront _

theorem beside_withFree (s : State) (n : Nat) : s.Beside (s.withFree n) :=
  beside_of_eq rfl rfl rfl ⟨rfl, rfl⟩ List.suffix_rfl

theorem beside_withPins (s : State) (p : LineLevels) : s.Beside (s.withPins p) :=
  beside_of_eq rfl rfl rfl ⟨rfl, rfl⟩ List.suffix_rfl

/-- No FLUSH note joins the requests, and the dies commit what they did. -/
theorem beside_withMedia {m : Scheduler}
    (hs : ∀ r ∈ m.services, ∀ image, r.op = .flushNote image → ∃ r' ∈ s.media.services, r'.op = .flushNote image)
    (hc : ∀ d, (m.dies.get d).state.committing = (s.die d).committing) : s.Beside (s.withMedia m) where
  entries := rfl
  rows := id
  drop := rfl
  numbers := List.suffix_rfl
  vacant := by
    rintro (h | ⟨r, hr, image, ho⟩)
    · exact .inl (.inl h)
    · obtain ⟨r', hr', ho'⟩ := hs r hr image ho
      exact .inl (.inr ⟨r', hr', image, ho'⟩)
  before := id
  committing := hc

/-- Requests leave, and the dies stay as they are. -/
theorem beside_fewerServices {m : Scheduler} (hs : ∀ r ∈ m.services, r ∈ s.media.services) (hd : m.dies = s.media.dies) :
    s.Beside (s.withMedia m) :=
  beside_withMedia (fun r hr image ho => ⟨r, hs r hr, ho⟩) fun d => by rw [hd]; rfl

/-- The sequence goes on to a step that neither the load nor an empty queue has to precede unless the step before did. -/
theorem beside_withSequence {q : Sequence} (hq : q ≠ .flushNote)
    (hb : q.beforeLoad = true → s.control.sequence.beforeLoad = true) : s.Beside (s.withSequence q) where
  entries := rfl
  rows := id
  drop := rfl
  numbers := List.suffix_rfl
  vacant := by
    rintro ((h | h | h | h) | h)
    · exact .inl (.inl (.inl (hb h)))
    · exact absurd h hq
    · exact .inl (.inl (.inr (.inr (.inl h))))
    · exact .inl (.inl (.inr (.inr (.inr h))))
    · exact .inl (.inr h)
  before := hb
  committing _ := rfl

theorem beside_request (s : State) {op : ServiceOp} (ho : ∀ image, op ≠ .flushNote image) : s.Beside (s.request op) := by
  refine beside_withMedia (fun r hr image hi => ?_) fun _ => rfl
  rcases List.mem_append.1 hr with hr | hr
  · exact ⟨r, hr, hi⟩
  · rw [List.mem_singleton.1 hr] at hi
    exact absurd hi (ho image)

/-- The sequence goes on and makes its next request. -/
theorem beside_ask {q : Sequence} {op : ServiceOp} (hq : q ≠ .flushNote)
    (hb : q.beforeLoad = true → s.control.sequence.beforeLoad = true) (ho : ∀ image, op ≠ .flushNote image) :
    s.Beside ((s.withSequence q).request op) :=
  (beside_withSequence hq hb).trans (State.beside_request _ ho)

theorem beside_enterService (s : State) : s.Beside s.enterService where
  entries := rfl
  rows := id
  drop := rfl
  numbers := List.suffix_rfl
  vacant := by
    rintro ((h | h | h | h) | h)
    · cases h
    · cases h
    · cases h
    · cases h
    · exact .inl (.inr h)
  before := nofun
  committing _ := rfl

/-! ### Records, applies and the gauge (R174 to R181, R111) -/

theorem beside_laterApply (s : State) (p : ProfileImage) (page : Option Nat) : s.Beside (s.laterApply p page).1 :=
  beside_of_eq rfl rfl rfl ⟨rfl, rfl⟩ List.suffix_rfl

theorem beside_wholeApply (s : State) (p : ProfileImage) (page : Option Nat) (g : Gauge) :
    s.Beside (s.wholeApply p page g).1 :=
  beside_of_eq rfl rfl rfl ⟨rfl, rfl⟩ List.suffix_rfl

theorem beside_serviceApply (s : State) (image : Page) (page : Nat) : s.Beside (s.serviceApply image page) := by
  unfold State.serviceApply
  split
  · exact s.beside_record (by nofun)
  · exact (s.beside_laterApply _ _).trans (State.beside_record _ (by nofun))

theorem beside_applyAtStartUp (s : State) (r : ScanResult) : s.Beside (s.applyAtStartUp r) := by
  have applied (p : ProfileImage) (page : Option Nat) : s.Beside (s.startUpApply p page).1 := s.beside_wholeApply p page _
  unfold State.applyAtStartUp
  split
  · split
    · exact (applied _ _).trans (State.beside_record _ (by nofun))
    · exact (applied _ _).trans (State.beside_record _ (by nofun))
  · exact (applied _ _).trans (State.beside_record _ (by nofun))
  · exact (applied _ _).trans (State.beside_record _ (by nofun))

theorem beside_applyAtLineReset (s : State) (r : ScanResult) : s.Beside (s.applyAtLineReset r) := by
  unfold State.applyAtLineReset
  split
  · split
    · exact s.beside_record (by nofun)
    · exact (s.beside_laterApply _ _).trans (State.beside_record _ (by nofun))
  · exact (s.beside_laterApply _ _).trans (State.beside_record _ (by nofun))
  · exact s.beside_record (by nofun)

theorem beside_batteryEdge (s : State) (edge : HeldEdge) : s.Beside (s.batteryEdge edge) := by
  cases edge with
  | chgdone =>
    unfold State.batteryEdge
    dsimp only
    split
    · exact s.beside_withGauge _
    · exact .refl s
  | pkempty =>
    unfold State.batteryEdge
    dsimp only
    split
    · split
      · exact ((s.beside_withGauge _).trans (State.beside_record _ (by nofun))).trans (State.beside_withGauge _ _)
      · exact s.beside_withGauge _
    · exact .refl s
  | pkpresFall => exact (s.beside_withGauge _).trans (State.beside_record _ (by nofun))
  | pkpresRise => exact (s.beside_withGauge _).trans (State.beside_record _ (by nofun))

theorem beside_endGaugeHold (s : State) : s.Beside s.endGaugeHold := by
  have edges (l : List HeldEdge) (s : State) : s.Beside (l.foldl State.batteryEdge s) := by
    induction l generalizing s with
    | nil => exact .refl s
    | cons e l ih => exact (s.beside_batteryEdge e).trans (ih _)
  unfold State.endGaugeHold
  split
  · exact (s.beside_withGauge _).trans (edges _ _)
  · exact .refl s

/-! ### The failed-row table (R57, R58) -/

theorem FailedRowLaw.addFailed {t : State} (h : s.FailedRowLaw) {r : FailedRow}
    (ht : t.queue.failedRows = (addFailed s.queue.failedRows r).1) : t.FailedRowLaw := by
  unfold State.FailedRowLaw
  rw [ht]
  exact ⟨addFailed_length r h.1, addFailed_pairwise r h.2⟩

theorem FailedRowLaw.sublist {t : State} (h : s.FailedRowLaw) (ht : t.queue.failedRows.Sublist s.queue.failedRows) :
    t.FailedRowLaw :=
  ⟨ht.length_le.trans h.1, h.2.sublist ht⟩

theorem beside_addFailedRow (s : State) (r : FailedRow) : s.Beside (s.addFailedRow r).1 where
  entries := rfl
  rows hs := hs.addFailed rfl
  drop := rfl
  numbers := List.suffix_rfl
  vacant := .inl
  before := id
  committing _ := rfl

theorem beside_loadRows (s : State) (rows : List FailedRow) : s.Beside (s.loadRows rows) := by
  unfold State.loadRows
  induction rows generalizing s with
  | nil => exact .refl s
  | cons r rows ih => exact (s.beside_addFailedRow r).trans (ih _)

theorem beside_clearFailed (s : State) (e : Entry) :
    s.Beside (s.withQueue { s.queue with failedRows := clearFailed s.queue.failedRows e }) where
  entries := rfl
  rows hs := hs.sublist (clearFailed_sublist _ e)
  drop := rfl
  numbers := List.suffix_rfl
  vacant := .inl
  before := id
  committing _ := rfl

/-! ### The Drop Monitor between entries (R97, R100) -/

/-- An operation of the Drop Monitor that keeps its account. -/
theorem leaves_withDrop {d : DropMonitor} (hd : s.drop.Keeps d) : s.Leaves [] (s.withDrop d) where
  entries := rfl
  rows := id
  committing _ := rfl
  accounts _ _ ha := hd.accounts _ ha
  numbers hs := ⟨hd.numbered _ hs.numbers, fun hl => hs.unloaded (hd.loaded ▸ hl)⟩
  loaded := hd.loaded
  vacant := .inl
  before := id

theorem leaves_reportDrops (s : State) : s.Leaves [] s.reportDrops where
  entries := by simp
  rows hs := by simpa [State.FailedRowLaw] using hs
  committing d := by simp [State.die]
  accounts older younger ha := by rw [State.reportDrops_drop]; exact ha.reported
  numbers hs := hs.reportDrops
  loaded := by rw [State.reportDrops_drop, DropMonitor.reported_loaded]
  vacant ht := .inl (by unfold State.Vacant at ht ⊢; simpa using ht)
  before ht := by simpa using ht

/-- An entry's tag leaves the account. -/
theorem leaves_dropDeparted (s : State) (tag : Option Tick) (way : Departure) :
    s.Leaves tag.toList (s.dropDeparted tag way) := by
  cases tag with
  | none => exact (Beside.refl s).leaves
  | some n =>
    have told : s.Leaves [n]
        (s.withDrop { s.drop with pending := updateTagged n (Drop.departed way) s.drop.pending }) := by
      refine ⟨rfl, id, fun _ => rfl, fun older younger ha => DropMonitor.Accounts.departed ha way,
        fun hs => ⟨?_, hs.unloaded⟩, rfl, .inl, id⟩
      have numbers : (updateTagged n (Drop.departed way) s.drop.pending).map Drop.number =
          s.drop.pending.map Drop.number := map_updateTagged (f := Drop.departed way) (fun _ => rfl) _
      have law := hs.numbers
      rw [State.dropNumbers_eq] at law ⊢
      simpa only [withDrop_drop, withDrop_report, numbers] using law
    exact told.trans (State.leaves_reportDrops _)

/-! ### The OPENED note and the scans (R145, R170 to R177, R183) -/

theorem beside_finishOpening (s : State) (o : Opening) : s.Beside (s.finishOpening o) := by
  cases o with
  | startUp info => exact (s.beside_record (by nofun)).trans (State.beside_enterService _)
  | dipRecovery => exact ((s.beside_record (by nofun)).trans (State.beside_withFront _ _)).trans (State.beside_enterService _)

theorem beside_openNote (s : State) (o : Opening) : s.Beside (s.openNote o) := by
  unfold State.openNote
  split
  · exact beside_ask (by nofun) (by nofun) (by nofun)
  · exact beside_ask (by nofun) (by nofun) (by nofun)

theorem beside_openOrFinish (s : State) (o : Opening) : s.Beside (s.openOrFinish o) := by
  unfold State.openOrFinish
  split
  · exact s.beside_openNote o
  · exact s.beside_finishOpening o

/-- The step that an opening leaves is past the load. -/
theorem openOrFinish_beforeLoad (s : State) (o : Opening) : (s.openOrFinish o).control.sequence.beforeLoad = false := by
  unfold State.openOrFinish
  split
  · unfold State.openNote
    split <;> simp [Sequence.beforeLoad]
  · cases o <;> rfl

/-- The counters are loaded where the queue is empty and, for the DROP records' sake, not loaded yet; what follows the load
ends in a step that it is not to precede. -/
theorem keeps_of_load {A : Prop} {u t : State} {dropBase sequenceBase : Tick} (hu : s.Beside u)
    (hv : s.Vacant ∨ s.queue.entries = []) (hl : s.DropRecordLaw → u.drop.loaded = false)
    (ht : (u.loadCounters dropBase sequenceBase).Leaves [] t) (hb : t.control.sequence.beforeLoad = false) : s.Keeps A t where
  rows hs := ht.rows (by simpa [State.FailedRowLaw] using hu.rows hs)
  commits hs := CommitLaw.of_eq (hs.of_eq hu.entries hu.committing) (ht.entries.trans (by simp))
    fun d => (ht.committing d).trans (by simp [State.die])
  drops _ hs := by
    have empty : u.queue.entries = [] := by
      rw [hu.entries]
      exact hv.elim hs.vacant id
    have accounts := (hu.leaves.accounted hs).accounts
    refine ht.accounted ⟨fun _ => by simpa using empty, ?_⟩
    unfold HoldQueue.tags at accounts ⊢
    rw [empty] at accounts
    simp only [loadCounters_frame, empty]
    unfold State.loadCounters
    rw [State.reportDrops_drop]
    exact (accounts.load dropBase).reported
  records hs := by
    have numbers := hu.numbersLaw (State.dropRecordLaw_iff.1 hs).1
    exact State.dropRecordLaw_iff.2 ⟨ht.numbers (numbers.loadCounters (hl hs) _ _), fun h => by rw [hb] at h; cases h⟩

/-- The note outcome loads the counters in a step that comes before the load (R103, R177). -/
theorem keeps_settleNote {A : Prop} {u : State} (hu : s.Beside u) (hb : s.control.sequence.beforeLoad = true)
    (best : Option (Nat × Page)) : s.Keeps A (u.settleNote best) := by
  have settled (dropBase sequenceBase : Tick) {t : State} (ht : (u.loadCounters dropBase sequenceBase).Beside t)
      (o : Opening) : s.Keeps A (t.openOrFinish o) :=
    keeps_of_load hu (.inl (.inl (.inl hb))) (fun hs => by rw [hu.drop]; exact hs.before hb)
      (ht.trans (t.beside_openOrFinish o)).leaves (t.openOrFinish_beforeLoad o)
  unfold State.settleNote
  split
  · exact settled 0 0 (State.beside_endGaugeHold _) _
  · split
    · unfold State.cleanStart
      dsimp only
      exact settled _ _ ((((State.beside_withGauge _ _).trans (State.beside_endGaugeHold _)).trans
        (State.beside_loadRows _ _)).trans (beside_withControl (by exact ⟨rfl, rfl⟩))) _
    · exact settled _ _ (State.beside_endGaugeHold _) _

theorem beside_loseNote (s : State) : s.Beside s.loseNote := beside_withControl (by exact ⟨rfl, rfl⟩)

theorem keeps_noteScanned {A : Prop} (hb : s.control.sequence.beforeLoad = true) (page : Nat) (best : Option (Nat × Page))
    (data : Page) : s.Keeps A (s.noteScanned page best data) := by
  unfold State.noteScanned
  split
  · exact keeps_settleNote (beside_withControl (by exact ⟨rfl, rfl⟩)) hb best
  · dsimp only
    split
    · exact keeps_settleNote (beside_withControl (by exact ⟨rfl, rfl⟩)) hb _
    · exact (beside_ask (by nofun) (fun _ => hb) (by nofun)).keeps

theorem keeps_probeNext {A : Prop} {u : State} (hu : s.Beside u) (hb : s.control.sequence.beforeLoad = true)
    (hub : u.control.sequence.beforeLoad = true) (dies : List Die) : s.Keeps A (u.probeNext dies) := by
  cases dies with
  | nil =>
    unfold State.probeNext State.beginNoteScan
    dsimp only
    split
    · exact (hu.trans (beside_ask (by nofun) (fun _ => hub) (by nofun))).keeps
    · exact keeps_settleNote (hu.trans u.beside_loseNote) hb none
  | cons d rest => exact (hu.trans (beside_ask (by nofun) (fun _ => hub) (by nofun))).keeps

/-- A scan of start-up comes before the load (R170). -/
theorem keeps_scanEnded {A : Prop} {purpose : ScanFor} (hb : purpose = .startUp → s.control.sequence.beforeLoad = true)
    (result : ScanResult) : s.Keeps A (s.scanEnded purpose result) := by
  cases purpose with
  | startUp => exact keeps_probeNext (s.beside_applyAtStartUp result) (hb rfl) (by simpa using hb rfl) _
  | lineReset =>
    exact (((s.beside_applyAtLineReset result).trans (State.beside_record _ (by nofun))).trans
      (State.beside_enterService _)).keeps

theorem keeps_scanAsk {A : Prop} {purpose : ScanFor} (hb : purpose = .startUp → s.control.sequence.beforeLoad = true)
    (page : Nat) (best : Option (Nat × Page)) (failed : Nat) :
    s.Keeps A ((s.withSequence (.profileScan purpose page best failed)).request (.profileRead page)) := by
  refine (beside_ask (by nofun) (fun h => ?_) (by nofun)).keeps
  cases purpose with
  | startUp => exact hb rfl
  | lineReset => cases h

theorem keeps_beginScan {A : Prop} {purpose : ScanFor} (hb : purpose = .startUp → s.control.sequence.beforeLoad = true) :
    s.Keeps A (s.beginScan purpose) := by
  unfold State.beginScan
  exact iteInduction (motive := s.Keeps A) (fun _ => keeps_scanAsk hb 0 none 0) (fun _ => keeps_scanEnded hb .unread)

theorem keeps_scanOn {A : Prop} {purpose : ScanFor} (hb : purpose = .startUp → s.control.sequence.beforeLoad = true)
    (page : Nat) (best : Option (Nat × Page)) (failed : Nat) : s.Keeps A (s.scanOn purpose page best failed) := by
  unfold State.scanOn
  split
  · exact keeps_scanEnded hb _
  · exact keeps_scanAsk hb _ _ _

theorem keeps_profileScanned {A : Prop} {purpose : ScanFor} (hb : purpose = .startUp → s.control.sequence.beforeLoad = true)
    (page : Nat) (best : Option (Nat × Page)) (failed : Nat) (data : Page) :
    s.Keeps A (s.profileScanned purpose page best failed data) := by
  unfold State.profileScanned
  split
  · exact keeps_scanEnded hb _
  · split
    · exact keeps_scanOn hb _ _ _
    · exact keeps_scanOn hb _ _ _

theorem beside_lineProbeNext (s : State) (dies : List Die) : s.Beside (s.lineProbeNext dies) := by
  cases dies with
  | nil => exact beside_withSequence (by nofun) (by nofun)
  | cons d rest => exact beside_ask (by nofun) (by nofun) (by nofun)

/-! ### Dip recovery, SPENT and the flush (R132 to R149) -/

theorem beside_recoverSettings (s : State) : s.Beside s.recoverSettings := by
  unfold State.recoverSettings
  split
  · exact s.beside_wholeApply _ _ _
  · exact .refl s

theorem leaves_recoverDrops (s : State) : s.Leaves [] s.recoverDrops := by
  have kept : s.drop.Keeps (if s.drop.markDip.hold then s.drop.markDip.close s.tick false else s.drop.markDip) := by
    split
    · exact s.drop.keeps_markDip.trans (DropMonitor.keeps_close _ _ _)
    · exact s.drop.keeps_markDip
  exact (leaves_withDrop kept).trans (State.leaves_reportDrops _)

/-- A recovery loads the counters where they are not loaded yet (R145); it begins in SPENT, with the queue empty. -/
theorem keeps_beginRecovery {A : Prop} {u : State} (hu : s.Beside u) (hv : s.Vacant ∨ s.queue.entries = []) :
    s.Keeps A u.beginRecovery := by
  have steps (t : State) : t.Leaves [] (t.recoverSettings.recoverDrops.openOrFinish .dipRecovery) :=
    (t.beside_recoverSettings.leaves.trans (State.leaves_recoverDrops _)).beside (State.beside_openOrFinish _ _)
  have past := u.recoverCounters.recoverSettings.recoverDrops.openOrFinish_beforeLoad .dipRecovery
  unfold State.beginRecovery
  cases hl : u.drop.loaded with
  | true =>
    have counted : u.recoverCounters = u := by simp [State.recoverCounters, hl]
    rw [counted]
    exact (hu.leaving (steps u)).keeps
  | false =>
    have counted : u.recoverCounters = u.loadCounters 0 0 := by simp [State.recoverCounters, hl]
    rw [counted] at past ⊢
    exact keeps_of_load hu hv (fun _ => hl) (steps _) past

/-- SPENT is entered with the queue empty (R133, R137). -/
theorem keeps_enterSpent {A : Prop} {u : State} (hu : s.Beside u) (hv : s.Vacant ∨ s.queue.entries = []) :
    s.Keeps A u.enterSpent := by
  have spent : s.Beside ((u.withSequence .none).withServiceState .spent) :=
    ⟨⟨hu.entries, hu.rows, hu.drop, hu.numbers, fun _ => hv, nofun⟩, hu.committing⟩
  unfold State.enterSpent
  dsimp only
  split
  · exact keeps_beginRecovery spent hv
  · exact spent.keeps

theorem keeps_endFlush {A : Prop} {u : State} (hu : s.Beside u) (hv : s.Vacant ∨ s.queue.entries = [])
    (outcome : FlushNoteOutcome) : s.Keeps A (u.endFlush outcome) :=
  keeps_enterSpent (hu.trans (beside_withControl (by exact ⟨rfl, rfl⟩))) hv

theorem beside_restand (s : State) {m : Scheduler} (hs : ∀ r ∈ m.services, r ∈ s.media.services) (hd : m.dies = s.media.dies)
    (standing : Standing) : s.Beside (s.withMedia (m.restand standing)) := by
  refine beside_withMedia (fun r hr image ho => ?_) fun d => ?_
  · obtain ⟨r', hr', rfl⟩ := List.mem_map.1 hr
    exact ⟨r', hs r' hr', by rw [ServiceRequest.restand_eq] at ho; split at ho <;> exact ho⟩
  · rw [Scheduler.restand, PerDie.get_map, hd]
    exact DieRecord.restand_committing standing _

theorem mem_withdrawNotes {m : Scheduler} {r : ServiceRequest} (h : r ∈ m.withdrawNotes.services) : r ∈ m.services :=
  (List.mem_filter.1 h).1

theorem keeps_stopStartUp {A : Prop} {u : State} (hu : s.Beside u) (hv : s.Vacant ∨ s.queue.entries = []) :
    s.Keeps A u.stopStartUp := by
  have withdrawn := u.beside_restand (m := u.media.withdrawNotes) (fun _ => mem_withdrawNotes) rfl .disregarded
  unfold State.stopStartUp
  exact keeps_enterSpent (((hu.trans withdrawn).trans (beside_withControl (by exact ⟨rfl, rfl⟩))).trans
    (State.beside_endGaugeHold _)) hv

theorem beside_stopRecovery (s : State) : s.Beside s.stopRecovery :=
  (s.beside_restand (m := s.media.withdrawNotes) (fun _ => mem_withdrawNotes) rfl .noteOnly).trans
    (beside_withSequence (by nofun) (by nofun))

/-! ### Results of service operations (R72, R143, R148) -/

theorem beside_noteWritten (s : State) (op : ServiceOp) (r : MediaResult) : s.Beside (s.noteWritten op r) :=
  beside_of_eq (by simp) (by simp) (by simp) ⟨by simp, by simp⟩ (by simp)

theorem beside_oldNoteWritten (s : State) (op : ServiceOp) (r : MediaResult) : s.Beside (s.oldNoteWritten op r) := by
  have noted := s.beside_noteWritten op r
  have withdrawn (o : Opening) :
      s.Beside (((s.noteWritten op r).withMedia (s.noteWritten op r).media.withdrawNotes).finishOpening o) :=
    (noted.trans (beside_fewerServices (fun _ => mem_withdrawNotes) rfl)).trans (State.beside_finishOpening _ o)
  unfold State.oldNoteWritten
  dsimp only
  split
  case h_1 opening _ | h_2 opening _ =>
    split
    · exact noted
    · exact withdrawn opening
  all_goals exact noted

theorem keeps_sequenceResult {A : Prop} (s : State) (op : ServiceOp) (r : MediaResult) : s.Keeps A (s.sequenceResult op r) := by
  have noted := s.beside_noteWritten op r
  unfold State.sequenceResult
  split
  next => exact .refl s
  next => exact .refl s
  next hs => exact keeps_beginScan fun _ => by rw [hs]; rfl
  next purpose page best failed hs =>
    have start : purpose = .startUp → s.control.sequence.beforeLoad = true := by
      rintro rfl
      rw [hs]
      rfl
    split
    · exact keeps_profileScanned start _ _ _ _
    · exact keeps_scanOn start _ _ _
    · exact keeps_scanEnded start _
    · exact keeps_scanEnded start _
  next hs =>
    have before : s.control.sequence.beforeLoad = true := by rw [hs]; rfl
    exact keeps_probeNext (.refl s) before before _
  next hs =>
    have before : s.control.sequence.beforeLoad = true := by rw [hs]; rfl
    split
    · exact keeps_noteScanned before _ _ _
    · exact keeps_settleNote s.beside_loseNote before _
  next => exact (noted.trans (State.beside_openOrFinish _ _)).keeps
  next => exact (noted.trans (State.beside_finishOpening _ _)).keeps
  next => exact (s.beside_lineProbeNext _).keeps
  next => exact .refl s
  next => exact .refl s
  next hs => exact keeps_endFlush noted (.inl (.inl (.inr (.inl hs)))) _

theorem keeps_serviceDone {A : Prop} (s : State) (request : ServiceRequest) (r : MediaResult) :
    s.Keeps A (s.serviceDone request r) := by
  unfold State.serviceDone
  split
  · exact s.keeps_sequenceResult _ _
  · exact (s.beside_oldNoteWritten _ _).keeps
  · exact .refl s

end State

end Sys2Proof.Machine
end

section
/-! The failed-row table, the commits, the Drop Monitor's account and the DROP records (R47, R57, R97, R152): every
consequence of an event keeps their laws. -/

namespace Sys2Proof.Machine

theorem State.Around.accounted {s t : State} (h : s.Around t) (hs : s.Accounted) : t.Accounted where
  vacant ht := by
    rw [h.entries]
    exact (h.vacant ht).elim hs.vacant id
  accounts := by
    rw [HoldQueue.tags, h.entries, h.drop]
    exact hs.accounts

theorem State.Around.records {s t : State} (h : s.Around t) (hs : s.DropRecordLaw) : t.DropRecordLaw :=
  State.dropRecordLaw_iff.2 ⟨h.numbersLaw (State.dropRecordLaw_iff.1 hs).1, fun ht => h.drop ▸ hs.before (h.before ht)⟩

theorem State.Around.keeps {A : Prop} {s t : State} (h : s.Around t) (hc : s.CommitLaw → t.CommitLaw) : s.Keeps A t :=
  ⟨h.rows, hc, fun _ => h.accounted, h.records⟩

namespace State

variable {s : State}

/-! ### Starting a media operation (R49, R66, R67) -/

theorem beside_countFailure (s : State) : s.Beside s.countFailure := beside_fewerServices (fun _ => id) rfl

theorem beside_takeRequest (s : State) (r : ServiceRequest) : s.Beside (s.takeRequest r) :=
  beside_fewerServices (fun _ => List.mem_of_mem_erase) rfl

theorem beside_handLines (s : State) : s.Beside s.handLines := beside_fewerServices (fun _ => id) rfl

theorem beside_withPatience (s : State) (d : Die) (n : Nat) : s.Beside (s.withPatience d n) :=
  beside_withMedia (fun r hr _ ho => ⟨r, hr, ho⟩) fun d' => congrArg DieState.committing (s.withPatience_die d' d n)

/-- A die takes another state: the entries, the drops and the requests stay as they are. -/
theorem around_withDie (s : State) (d : Die) (x : DieState) : s.Around (s.withDie d x) :=
  ⟨rfl, id, rfl, List.suffix_rfl, .inl, id⟩

/-- A die takes another state that commits as much. -/
theorem beside_withDie {d : Die} {x : DieState} (hx : x.committing = (s.die d).committing) : s.Beside (s.withDie d x) where
  toAround := s.around_withDie d x
  committing d' := by
    rw [withDie_die]
    split
    next hd => rw [hd, hx]
    · rfl

theorem die_committing_idle {d : Die} (hd : s.die d = .idle) : (s.die d).committing = false := by rw [hd]; rfl

theorem die_committing_offline {d : Die} (hd : s.die d = .offline) : (s.die d).committing = false := by rw [hd]; rfl

/-- A die that commits nothing starts an operation other than a commit. -/
theorem beside_startMedia {d : Die} (hd : (s.die d).committing = false) (kind : MediaKind) (row : Option Nat) (image : Page)
    {requester : Requester} (hr : requester ≠ .commit) : s.Beside (s.startMedia d kind row image requester) :=
  beside_withDie (by rw [hd]; simpa [DieState.committing] using hr)

theorem beside_startFront {d : Die} (hd : (s.die d).committing = false) (row : Nat) : s.Beside (s.startFront d row) :=
  (beside_fewerServices (m := { s.media with frontRead := none }) (fun _ => id) rfl).trans
    (beside_startMedia (by exact hd) _ _ _ (by nofun))

theorem beside_spendUnit (s : State) : s.Beside s.spendUnit :=
  beside_of_eq (by simp) (by simp) (by simp) (by simp) (by simp)

theorem beside_useNotePage (s : State) : s.Beside s.useNotePage :=
  beside_of_eq (by simp) (by simp) (by simp) (by simp) (by simp)

/-- A FLUSH note that finds the budget spent ends the flush, with the queue empty since it was requested (R141). -/
theorem keeps_startService {A : Prop} {d : Die} {r : ServiceRequest} (hd : (s.die d).committing = false)
    (hr : r ∈ s.media.services) : s.Keeps A (s.startService d r) := by
  have taken := s.beside_takeRequest r
  have started (kind : MediaKind) (row : Option Nat) (image : Page) :
      s.Beside ((s.takeRequest r).startMedia d kind row image (.service r)) :=
    taken.trans (beside_startMedia (by exact hd) kind row image (by nofun))
  unfold State.startService
  dsimp only
  split
  · exact (started _ _ _).keeps
  · exact (started _ _ _).keeps
  · exact (started _ _ _).keeps
  · exact (started _ _ _).keeps
  · exact ((started _ _ _).trans (State.beside_useNotePage _)).keeps
  next image hop =>
    split
    · exact keeps_endFlush taken (.inl (.inr ⟨r, hr, image, hop⟩)) _
    · exact (((started _ _ _).trans (State.beside_useNotePage _)).trans (State.beside_spendUnit _)).keeps

/-- Entries that change, but not in their tags. -/
theorem Accounted.withQueue {q : HoldQueue} (h : s.Accounted) (ht : q.tags = s.queue.tags)
    (hn : s.queue.entries = [] → q.entries = []) : (s.withQueue q).Accounted :=
  ⟨fun hv => hn (h.vacant hv), ht ▸ h.accounts⟩

theorem DropRecordLaw.withQueue (h : s.DropRecordLaw) (q : HoldQueue) : (s.withQueue q).DropRecordLaw :=
  ⟨h.numbers, h.unloaded, h.before⟩

theorem keeps_startCommit {A : Prop} {d : Die} {e : Entry} (ho : s.queue.oldest d = some e) :
    s.Keeps A (s.startCommit d e) := by
  have started : (s.withQueue { s.queue with entries := updateOldest d commitEntry s.queue.entries }).Around
      (s.startCommit d e) :=
    ((State.beside_spendUnit _).trans (State.beside_withPatience _ d 0)).toAround.trans (State.around_withDie _ d _)
  have dies (d' : Die) : ((s.startCommit d e).die d').committing = if d' = d then true else (s.die d').committing := by
    unfold State.startCommit State.startMedia
    dsimp only
    rw [withDie_die, withPatience_die]
    split
    · rfl
    · simp [State.die]
  obtain ⟨older, younger, hs, he, hn⟩ := oldest_exists ho
  have tags : (updateOldest d commitEntry s.queue.entries).filterMap Entry.dropTag = s.queue.tags := by
    rw [HoldQueue.tags, hs, (oldest_split he hn).2.2]
    simp [commitEntry, List.filterMap_cons]
  refine ⟨started.rows, fun hc => ?_, fun _ ha => started.accounted (ha.withQueue tags (by simp [hs])),
    fun hr => started.records (hr.withQueue _)⟩
  exact hc.startOldest ho started.entries (by rw [dies, if_pos rfl]) fun d' hd => by rw [dies, if_neg hd]

/-! ### Results of commits (R50, R51, R55) -/

theorem beside_countLeaving (s : State) (passed : Bool) : s.Beside (s.countLeaving passed) :=
  beside_of_eq (by simp) (by simp) (by simp) (by simp) (by simp)

theorem beside_releaseFront (s : State) (e : Entry) (passed : Bool) : s.Beside (s.releaseFront e passed) :=
  beside_of_eq (by simp) (by simp) (by simp) (by simp) (by simp)

theorem beside_frontReadDone (s : State) (base : Page) (failed : Bool) : s.Beside (s.frontReadDone base failed) :=
  beside_of_eq (by simp) (by simp) (by simp) (by simp) (by simp)

theorem beside_applyCommitted (s : State) (e : Entry) : s.Beside (s.applyCommitted e) := by
  unfold State.applyCommitted
  split
  · exact s.beside_serviceApply _ _
  · exact .refl s

theorem leaves_afterPass (s : State) (e : Entry) : s.Leaves e.dropTag.toList (s.afterPass e) := by
  have chosen := s.beside_withFree (s.free + 1)
  unfold State.afterPass
  dsimp only
  split
  · split
    · exact (chosen.leaving (State.leaves_dropDeparted _ _ _)).beside (State.beside_applyCommitted _ e)
    · exact (chosen.trans (State.beside_applyCommitted _ e)).leaving (State.leaves_dropDeparted _ _ _)
  · exact (s.leaves_dropDeparted _ _).beside (State.beside_applyCommitted _ e)

theorem leaves_passCommit (s : State) (e : Entry) : s.Leaves e.dropTag.toList (s.passCommit e) := by
  unfold State.passCommit
  exact (((s.beside_clearFailed e).trans (State.beside_countLeaving _ true)).trans
    (State.beside_releaseFront _ e true)).leaving (State.leaves_afterPass _ e)

theorem leaves_reportUnwritten (s : State) (e : Entry) (cause : CommitFailCause) (way : Departure) :
    s.Leaves e.dropTag.toList (s.reportUnwritten e cause way) := by
  unfold State.reportUnwritten
  exact ((s.beside_addFailedRow _).trans (State.beside_record _ (by nofun))).leaving (State.leaves_dropDeparted _ _ _)

theorem leaves_failCommit (s : State) (e : Entry) (cause : FailCause) :
    s.Leaves e.dropTag.toList (s.failCommit e cause) := by
  have released := (s.beside_countLeaving false).trans (State.beside_releaseFront _ e false)
  unfold State.failCommit
  dsimp only
  split
  · exact released.leaving (State.leaves_dropDeparted _ _ _)
  · exact released.leaving (State.leaves_reportUnwritten _ _ _ _)

/-- An entry leaves from among the others, and what its departure brings about takes its tag out of the account. -/
theorem Leaves.accounted_of_removed {t : State} {older younger l : List Entry} {e : Entry} (hs : s.Accounted)
    (hq : s.queue.entries = older ++ e :: younger) (hl : l = older ++ younger)
    (ht : (s.withQueue { s.queue with entries := l }).Leaves e.dropTag.toList t) : t.Accounted := by
  refine ⟨fun hv => ?_, ?_⟩
  · rcases ht.vacant hv with hv | hv
    · have none := hs.vacant hv
      simp [hq] at none
    · rw [ht.entries]
      exact hv
  · have accounts := hs.accounts
    rw [HoldQueue.tags, hq, List.filterMap_append, List.filterMap_cons] at accounts
    rw [HoldQueue.tags, ht.entries, withQueue_queue, hl, List.filterMap_append]
    refine ht.accounts _ _ ?_
    cases htag : e.dropTag <;> simpa [htag] using accounts

/-- A die that commits nothing any more gives up its oldest entry, whose tag leaves the account. -/
theorem keeps_commitDone {A : Prop} {u : State} {d : Die} (hu : s.Around u) (hc : s.CommitLaw → u.CommitLawBut d)
    (result : MediaResult) : s.Keeps A (u.commitDone d result) := by
  unfold State.commitDone
  split
  next ho => exact hu.keeps fun hs => (hc hs).of_oldest_none ho
  next e ho =>
    obtain ⟨older, younger, hq, he, hn⟩ := oldest_exists ho
    have left {t : State} (ht : (u.withQueue { u.queue with entries := removeOldest d u.queue.entries }).Leaves
        e.dropTag.toList t) : s.Keeps A t :=
      ⟨fun hs => ht.rows (hu.rows hs), fun hs => (hc hs).removeOldest ho ht.entries ht.committing,
        fun _ hs => Leaves.accounted_of_removed (hu.accounted hs) hq (by rw [hq, (oldest_split he hn).2.1]) ht,
        fun hs => ht.records ((hu.records hs).withQueue _)⟩
    dsimp only
    split
    · exact left (State.leaves_passCommit _ e)
    · exact left (State.leaves_failCommit _ e _)

/-- The result of an operation that a die is busy with no longer; only a commit's touches the queue. -/
theorem keeps_handResult {A : Prop} {u : State} {d : Die} {requester : Requester} (hu : s.Around u)
    (hc : requester = .commit → s.CommitLaw → u.CommitLawBut d) (ho : requester ≠ .commit → s.Beside u)
    (result : MediaResult) (data : Page) : s.Keeps A (u.handResult d requester result data) := by
  unfold State.handResult
  split
  · exact (ho (by nofun)).keeps
  · exact ((ho (by nofun)).trans (State.beside_frontReadDone _ _ _)).keeps
  · exact keeps_commitDone hu (hc rfl) result
  · exact (ho (by nofun)).keeps.trans (State.keeps_serviceDone _ _ _)

/-! ### The end of the drain (R55, R137) -/

theorem leaves_reportEach (l : List Entry) (s : State) :
    s.Leaves (l.filterMap Entry.dropTag) (l.foldl (fun acc e => acc.reportUnwritten e .lost .lost) s) := by
  induction l generalizing s with
  | nil => exact (Beside.refl s).leaves
  | cons e l ih =>
    have tags : (e :: l).filterMap Entry.dropTag = e.dropTag.toList ++ l.filterMap Entry.dropTag := by
      cases h : e.dropTag <;> simp [h]
    rw [tags]
    exact (s.leaves_reportUnwritten e _ _).trans (ih _)

/-- Where the drain has ended no die commits. -/
theorem drainEnded_idle (h : s.drainEnded = true) (hc : s.CommitLaw) (d : Die) : (s.die d).committing = false := by
  have waiting : ∀ e ∈ s.queue.entries, e.progress ≠ .committing := by
    unfold State.drainEnded HoldQueue.committing at h
    rcases Bool.or_eq_true_iff.1 h with h | h
    · simp [of_decide_eq_true h]
    · simpa using (Bool.and_eq_true_iff.1 h).2
  cases hd : s.queue.onDie d with
  | nil => exact hc.absent d hd
  | cons e younger =>
    have oldest := hc.oldest d e (by rw [hd]; rfl)
    have held : e ∈ s.queue.entries := (List.mem_filter.1 (hd ▸ List.mem_cons_self)).1
    exact Bool.eq_false_iff.2 fun hcommits => waiting e held (oldest.1 hcommits)

/-- Every entry is lost, and every tag leaves the account. -/
theorem keeps_loseEntries {A : Prop} (h : s.drainEnded = true) : s.Keeps A s.loseEntries := by
  have none := s.loseEntries_entries
  have lost : (s.withControl { s.control with
        counts := { s.control.counts with lost := s.control.counts.lost + s.queue.entries.length } }).withQueue
        { s.queue with entries := [] } |>.Leaves s.queue.tags s.loseEntries := State.leaves_reportEach _ _
  refine ⟨lost.rows, fun hc => State.commitLaw_iff.2 fun d => ?_, fun _ hs => ⟨fun _ => none, ?_⟩,
    fun hs => lost.records ⟨hs.numbers, hs.unloaded, hs.before⟩⟩
  · rw [HoldQueue.onDie, none, lost.committing]
    exact drainEnded_idle h hc d
  · rw [HoldQueue.tags, none]
    exact lost.accounts [] [] (by simpa using hs.accounts)

theorem keeps_endDrain {A : Prop} (h : s.drainEnded = true) : s.Keeps A s.endDrain := by
  refine (keeps_loseEntries h).trans ?_
  have none := s.loseEntries_entries
  unfold State.endDrain
  dsimp only
  split
  · refine State.Beside.keeps ⟨⟨rfl, id, rfl, List.suffix_rfl, fun _ => .inr none, nofun⟩, fun _ => rfl⟩
  · exact keeps_endFlush (.refl _) (.inr none) _

/-! ### The consequences of an event -/

theorem keeps_micro {A : Prop} {t u : State} (hs : s.Keeps A t) (ht : t.micro = some u) : s.Keeps A u := by
  refine State.micro_keeps (P := s.Keeps A) ?free ?service ?front ?commit ?probe ?pass ?fail ?failFront ?failCommit
    ?scan ?drain t u hs ht
  case free => exact fun t n h => h.trans (t.beside_withFree n).keeps
  case service => exact fun t d r h hd hr _ _ _ => h.trans (keeps_startService (die_committing_idle hd) hr)
  case front =>
    intro t d row contested h hd _ _ _
    have idle := die_committing_idle hd
    refine h.trans ?_
    unfold State.perform
    dsimp only
    split
    · have waited := t.beside_withPatience d ((t.media.dies.get d).patience + 1)
      exact (waited.trans (beside_startFront (by rw [waited.committing, idle]) row)).keeps
    · exact (beside_startFront idle row).keeps
  case commit => exact fun t d e h _ ho _ => h.trans (keeps_startCommit (State.offer_some ho).2.1)
  case probe => exact fun t r h hr hd _ => h.trans (keeps_startService (die_committing_offline hd) hr)
  case pass =>
    exact fun t r h _ _ _ => (h.trans (t.beside_takeRequest r).keeps).trans (State.keeps_serviceDone _ r _)
  case fail =>
    exact fun t r h _ _ _ => (h.trans ((t.beside_takeRequest r).trans (State.beside_countFailure _)).keeps).trans
      (State.keeps_serviceDone _ r _)
  case failFront =>
    intro t d row h _ _ _
    have taken : t.Beside (t.withMedia { t.media with frontRead := none }) := beside_fewerServices (fun _ => id) rfl
    exact h.trans ((taken.trans (State.beside_countFailure _)).trans (State.beside_frontReadDone _ _ _)).keeps
  case failCommit =>
    intro t d e h hd _
    have counted := t.beside_countFailure
    have idle : (t.countFailure.die d).committing = false := by rw [counted.committing, die_committing_offline hd]
    exact h.trans (keeps_commitDone counted.toAround
      (fun hc => (hc.of_eq counted.entries counted.committing).but idle) _)
  case scan => exact fun t h _ _ => h.trans (keeps_beginScan (by nofun))
  case drain => exact fun t h _ hd => h.trans (keeps_endDrain hd)

theorem keeps_settled {A : Prop} {t : State} (h : s.Keeps A t) : s.Keeps A t.settled :=
  State.settled_keeps (P := s.Keeps A) (fun _ _ => keeps_micro) (fun u hu => hu.trans u.beside_handLines.keeps) t h

end State

end Sys2Proof.Machine
end

section
/-! The failed-row table, the commits, the Drop Monitor's account and the DROP records (R47, R57, R97, R152) at the commands
of the front store bus and of the media side. -/

namespace Sys2Proof.Machine

/-! ### What the queue's law says before a command -/

theorem Sequence.beforeLoad_starting {q : Sequence} {v : ServiceState} (hb : q.beforeLoad = true) (hs : q.standsIn v) :
    v = .starting := by
  cases q with
  | settling elapsed => exact hs
  | probeDieZero => exact hs
  | profileScan purpose page best failed =>
    cases purpose with
    | startUp => exact hs
    | lineReset => cases hb
  | probeAdded rest => exact hs
  | noteScan page best => exact hs
  | none | openedErase _ | openedProgram _ | lineProbe _ | lineWait | drain | flushNote => cases hb

/-- A FLUSH note waits only where the flush awaits it (R66). -/
theorem State.SequenceLaw.flushNote {s : State} (h : s.SequenceLaw) {r : ServiceRequest} (hr : r ∈ s.media.services)
    {image : Page} (ho : r.op = .flushNote image) : s.control.sequence = .flushNote := by
  have waits : r ∈ s.serviceRequests := List.mem_append_left _ hr
  have awaits := h.awaited r waits (h.flush r waits image ho)
  rw [ho] at awaits
  cases hs : s.control.sequence <;> rw [hs] at awaits
  case probeAdded | lineProbe => obtain ⟨d, hd⟩ := awaits; cases hd
  all_goals cases awaits

/-- Where the law of the queue holds, the queue is empty wherever it is to be. -/
theorem State.QueueLaw.accounted {s : State} (h : s.QueueLaw) (hd : s.DropLaw) : s.Accounted := by
  refine ⟨?_, State.dropLaw_iff.1 hd⟩
  rintro ((hb | hn | hs | hs) | ⟨r, hr, image, ho⟩)
  · exact h.empty (.inl (Sequence.beforeLoad_starting hb h.sequence.stands))
  · exact h.note hn
  · exact h.empty (.inl hs)
  · exact h.empty (.inr hs)
  · exact h.note (h.sequence.flushNote hr ho)

/-- While the front holds an operation the part is in SERVICE, where entries may join (R36, R37). -/
theorem State.QueueLaw.not_vacant {s : State} (h : s.QueueLaw) (hf : s.front.state ≠ .idle) : ¬ s.Vacant := by
  have service : s.control.state = .service := by
    by_contra hs
    exact hf (h.idle hs)
  have stands := h.sequence.stands
  have flushes : s.control.sequence ≠ .flushNote := fun hn => by rw [hn, service] at stands; cases stands
  rintro ((hb | hn | hs | hs) | ⟨r, hr, image, ho⟩)
  · have starting := Sequence.beforeLoad_starting hb stands
    rw [service] at starting
    cases starting
  · exact flushes hn
  · rw [service] at hs
    cases hs
  · rw [service] at hs
    cases hs
  · exact flushes (h.sequence.flushNote hr ho)

/-! ### A die's commit and a drop's number, at an abandonment and at an acceptance -/

theorem DieRecord.abandon_committing (r : DieRecord) : r.abandon.state.committing = r.state.committing := by
  unfold DieRecord.abandon
  split
  · rfl
  · rfl
  next op hop =>
    split
    next hr => simp [DieState.committing, hop, hr]
    · rfl
    · rfl

theorem Drop.accepted_number (posted : Bool) (x : Drop) : (Drop.accepted posted x).number = x.number := by
  cases posted <;> rfl

namespace State

variable {s : State}

theorem Keeps.weaken {A B : Prop} {t : State} (h : s.Keeps B t) (hab : A → B) : s.Keeps A t :=
  ⟨h.rows, h.commits, fun ha => h.drops (hab ha), h.records⟩

/-! ### The front's operations (R19 to R37) -/

theorem beside_deselect (s : State) : s.Beside s.deselect := s.beside_withFront _

theorem beside_refuseByte (s : State) (cause : RefusalCause) : s.Beside (s.refuseByte cause) := s.beside_withFront _

theorem beside_clearRefused (s : State) : s.Beside s.clearRefused := s.beside_withFront _

theorem beside_drive (s : State) (byte : Option Byte) : s.Beside (s.drive byte) := s.beside_withFront _

/-- What the queue holds beside its entries and its failed rows changes. -/
theorem beside_withReserved (s : State) (reserved : Option Page) :
    s.Beside (s.withQueue { s.queue with reserved := reserved }) :=
  ⟨⟨rfl, id, rfl, List.suffix_rfl, .inl, id⟩, fun _ => rfl⟩

theorem beside_withConsumption (s : State) (consumption : Option Page) :
    s.Beside (s.withReport { s.report with consumption := consumption }) :=
  beside_withReport List.suffix_rfl

theorem beside_dropReceiving (s : State) : s.Beside s.dropReceiving :=
  ((s.beside_withReserved none).trans (State.beside_withConsumption _ none)).trans (State.beside_withFrontState _ .idle)

theorem beside_endTransaction (s : State) : s.Beside s.endTransaction := by
  unfold State.endTransaction
  split
  · exact .refl s
  · exact s.beside_withFrontState _
  · exact s.beside_withFrontState _
  · exact s.beside_dropReceiving
  · exact .refl s
  · exact .refl s

/-- The dies change, but not in what they commit. -/
theorem beside_mapDies {f : DieRecord → DieRecord} (hf : ∀ r, (f r).state.committing = r.state.committing) {m : Scheduler}
    (hd : m.dies = s.media.dies.map f) (hs : m.services = s.media.services) : s.Beside (s.withMedia m) :=
  beside_withMedia (fun r hr _ ho => ⟨r, hs ▸ hr, ho⟩) fun d => by rw [hd, PerDie.get_map, hf]; rfl

theorem beside_abandonRead (s : State) : s.Beside s.abandonRead := beside_mapDies DieRecord.abandon_committing rfl rfl

theorem beside_takeOperation (s : State) (kind : OpKind) : s.Beside (s.takeOperation kind) := by
  have taken := s.beside_deselect
  unfold State.takeOperation
  dsimp only
  split
  · exact .refl s
  split
  · exact taken.trans (State.beside_refuseByte _ _)
  split
  · exact taken.trans (State.beside_refuseByte _ _)
  · exact (taken.trans (State.beside_endTransaction _)).trans (State.beside_withFrontState _ _)

theorem beside_execStatus {t : State} (ht : execStatus s = .next t) : s.Beside t := by
  cases ht
  split
  · exact .refl s
  split
  · exact s.beside_withFront _
  · exact s.beside_endTransaction.trans (State.beside_withFront _ _)

/-! ### The AWAITING entry is withdrawn or detached (R35, R54) -/

theorem CommitLaw.filter {t : State} (h : s.CommitLaw) {p : Entry → Bool} (hp : ∀ x, p x = false → x.progress = .waiting)
    (hq : t.queue.entries = s.queue.entries.filter p) (hc : ∀ d, (t.die d).committing = (s.die d).committing) :
    t.CommitLaw := by
  rw [State.commitLaw_iff] at h ⊢
  intro d
  rw [hc, HoldQueue.onDie, hq, List.filter_comm]
  exact (h d).filter fun x _ => hp x

/-- With every entry but the youngest POSTED, the youngest alone can be withdrawn (R45). -/
theorem keeps_withdraw (s : State) : s.Keeps (∀ e ∈ s.queue.entries.dropLast, e.disposition = .posted) s.withdraw := by
  unfold State.withdraw
  split
  · exact .refl s
  next e he =>
    have left := State.leaves_dropDeparted
      (s.withQueue { s.queue with entries := s.queue.entries.filter (fun x => !x.withdrawable) }) e.dropTag .withdrawn
    have held := List.mem_of_find?_eq_some he
    have withdrawn := List.find?_some he
    refine ⟨left.rows, fun hc => hc.filter (fun x hx => ?_) left.entries left.committing, fun ho hs => ?_,
      fun hs => left.records (hs.withQueue _)⟩
    · exact (Entry.withdrawable_iff.1 (by simpa using hx)).2
    · rcases List.eq_nil_or_concat s.queue.entries with hq | ⟨older, x, hq⟩
      · simp [hq] at held
      · rw [List.concat_eq_append] at hq
        rw [hq, List.dropLast_concat] at ho
        obtain rfl : e = x := by
          rw [hq] at held
          rcases List.mem_append.1 held with hmem | hmem
          · have waits := (Entry.withdrawable_iff.1 withdrawn).1
            rw [ho e hmem] at waits
            cases waits
          · exact List.mem_singleton.1 hmem
        exact Leaves.accounted_of_removed hs hq (by rw [hq, (withdraw_split ho withdrawn).2, List.append_nil]) left

theorem detachEntry_spec (e : Entry) : (detachEntry e).row = e.row ∧ (detachEntry e).progress = e.progress ∧
    (detachEntry e).dropTag = e.dropTag := by
  unfold detachEntry
  split <;> exact ⟨rfl, rfl, rfl⟩

theorem keeps_detach {A : Prop} (s : State) : s.Keeps A (s.withQueue s.queue.detach) := by
  have tags : s.queue.detach.tags = s.queue.tags := by
    unfold HoldQueue.tags HoldQueue.detach
    rw [List.filterMap_map]
    exact List.filterMap_congr fun e _ => (detachEntry_spec e).2.2
  refine ⟨id, fun hc => ?_, fun _ hs => hs.withQueue tags fun hn => by simp [HoldQueue.detach, hn],
    fun hs => hs.withQueue _⟩
  rw [State.commitLaw_iff] at hc ⊢
  intro d
  have onDie : s.queue.detach.onDie d = (s.queue.onDie d).map detachEntry := by
    unfold HoldQueue.onDie HoldQueue.detach
    rw [List.filter_map]
    congr 1
    exact List.filter_congr fun e _ => by simp [(detachEntry_spec e).1]
  rw [withQueue_queue, onDie]
  exact (hc d).map fun e => (detachEntry_spec e).2.1

theorem keeps_resetOperation (s : State) : s.Keeps s.QueueLaw s.resetOperation := by
  unfold State.resetOperation
  split
  · exact .refl s
  · exact s.beside_endTransaction.keeps
  · exact (s.beside_abandonRead.trans (State.beside_withFrontState _ _)).keeps
  · exact s.beside_endTransaction.keeps
  · exact s.beside_endTransaction.keeps
  · unfold State.resetAwaiting
    split
    · exact (s.keeps_withdraw.weaken fun h => h.awaiting).trans (State.beside_withFrontState _ _).keeps
    · exact s.keeps_detach

theorem keeps_execReset {t : State} (ht : execReset s = .next t) : s.Keeps s.QueueLaw t := by
  cases ht
  split
  · exact .refl s
  split
  · exact (s.beside_deselect.trans (State.beside_refuseByte _ _)).keeps
  · exact s.keeps_resetOperation.trans (State.beside_withFront _ _).keeps

theorem keeps_execUnknownOperationByte {byte : Byte} {t : State} (ht : execUnknownOperationByte byte s = .next t) :
    s.Keeps s.QueueLaw t := by
  unfold Machine.execUnknownOperationByte at ht
  split at ht
  · cases ht
    exact .refl s
  · cases ht
    exact (s.beside_takeOperation .read).keeps
  · cases ht
    exact (s.beside_takeOperation .program).keeps
  · cases ht
    exact (s.beside_takeOperation .erase).keeps
  · exact (beside_execStatus ht).keeps
  · exact keeps_execReset ht

/-! ### The address phase and the data (R8, R20, R27 to R31) -/

theorem beside_refuse (s : State) (cause : RefusalCause) (op : OpKind) (row : BitVec 24) (absolute : Bool) :
    s.Beside (s.refuse cause op row absolute) := by
  have counted := s.beside_withFront (s.front.refuse cause)
  unfold State.refuse
  dsimp only
  split
  · exact counted
  · exact counted.trans (beside_withReport (ReportMemory.refuse_dropNumbers _ _ _ _ _ _ _))

theorem keeps_snoop {A : Prop} (s : State) (row column : Nat) : s.Keeps A (s.snoop row column) := by
  unfold State.snoop
  split
  · exact (s.beside_withFront _).keeps
  · have requested : s.Beside (s.withMedia { s.media with frontRead := some row }) := beside_fewerServices (fun _ => id) rfl
    exact keeps_settled (requested.trans (State.beside_withFrontState _ _)).keeps

theorem beside_receive (s : State) (op : Translated) : s.Beside (s.receive op) := by
  unfold State.receive
  split
  · exact (s.beside_withConsumption _).trans (State.beside_withFrontState _ _)
  all_goals exact (s.beside_withReserved _).trans (State.beside_withFrontState _ _)

theorem keeps_route {A : Prop} (s : State) (op : Translated) : s.Keeps A (s.route op) := by
  have passed := s.beside_clearRefused
  unfold State.route
  dsimp only
  split
  · split
    · exact passed.keeps.trans (State.keeps_snoop _ _ _)
    · exact (passed.trans (State.beside_withFront _ _)).keeps
    · exact passed.keeps.trans (State.keeps_snoop _ _ _)
    · exact passed.keeps.trans (State.keeps_snoop _ _ _)
  · exact (passed.trans (State.beside_receive _ op)).keeps
  · exact (passed.trans (State.beside_receive _ op)).keeps

theorem keeps_execAddressByte {A : Prop} {byte : Byte} {t : State} (ht : execAddressByte byte s = .next t) :
    s.Keeps A t := by
  cases ht
  split
  · exact .refl s
  split
  · unfold State.endAddress
    split
    · exact ((s.beside_withFrontState _).trans (State.beside_refuse _ _ _ _ _)).keeps
    · exact s.keeps_route _
  · exact (s.beside_withFrontState _).keeps
  all_goals exact .refl s

theorem beside_takeData (s : State) (op : Translated) (next : Nat) (byte : Byte) : s.Beside (s.takeData op next byte) := by
  have moved (n : Nat) := s.beside_withFrontState (.receiving op n)
  unfold State.takeData
  dsimp only
  split
  · exact (moved _).trans (State.beside_withConsumption _ _)
  all_goals exact (moved _).trans (State.beside_withReserved _ _)

theorem beside_execDataByte {byte : Byte} {t : State} (ht : execDataByte byte s = .next t) : s.Beside t := by
  cases ht
  split
  · exact .refl s
  split
  · split
    · exact s.beside_takeData _ _ byte
    · exact .refl s
  all_goals exact .refl s

theorem beside_execReadStrobe {t : State} (ht : execReadStrobe s = .next t) : s.Beside t := by
  cases ht
  split
  · exact s.beside_drive _
  split
  · exact s.beside_drive _
  · exact (s.beside_drive _).trans (State.beside_withFrontState _ _)
  all_goals exact s.beside_drive _

/-! ### END (R30, R42, R46, R156) -/

theorem beside_endConsumption (s : State) : s.Beside s.endConsumption := by
  have ended := (s.beside_withConsumption none).trans (State.beside_withFrontState _ .idle)
  unfold State.endConsumption
  dsimp only
  split
  · exact (ended.trans (State.beside_withFront _ _)).trans (beside_withReport (ReportMemory.release_dropNumbers _ _ _))
  · exact ended.trans (State.beside_refuse _ _ _ _ _)

theorem CommitLaw.snoc {t : State} (h : s.CommitLaw) {e : Entry} (he : e.progress = .waiting)
    (hq : t.queue.entries = s.queue.entries ++ [e]) (hc : ∀ d, (t.die d).committing = (s.die d).committing) :
    t.CommitLaw := by
  rw [State.commitLaw_iff] at h ⊢
  intro d
  rw [hc, HoldQueue.onDie, hq, List.filter_append, List.filter_singleton]
  cases hd : rowOnDie d e.row with
  | false => simpa [HoldQueue.onDie] using h d
  | true => exact (h d).snoc he

/-- An entry joins as youngest, with the tag of the drop in progress, where the queue need not be empty (R46, R97). -/
theorem keeps_accept (s : State) (op : Translated) (row : Nat) : s.Keeps (¬ s.Vacant) (s.accept op row) := by
  have stays {t : State} (hm : t.media = s.media) (hc : t.control = s.control) (hv : ¬ s.Vacant) : ¬ t.Vacant := by
    unfold State.Vacant at hv ⊢
    rwa [hm, hc]
  have waiting : (s.formEntry op row).progress = .waiting := rfl
  by_cases hs : s.drop.state = .calm
  · have untagged : (s.formEntry op row).dropTag = none := by rw [State.formEntry_eq, hs]; rfl
    rw [State.accept_calm row hs]
    refine ⟨id, fun hc => hc.snoc waiting rfl fun _ => rfl, fun hv ha => ⟨fun h => absurd h (stays rfl rfl hv), ?_⟩,
      fun hr => ⟨hr.numbers, hr.unloaded, hr.before⟩⟩
    rw [HoldQueue.tags, List.filterMap_append, List.filterMap_cons, untagged, List.filterMap_nil, List.append_nil]
    exact ha.accounts
  · have tagged : (s.formEntry op row).dropTag = some s.drop.counter := by rw [State.formEntry_eq]; exact if_neg hs
    rw [State.accept_held row hs]
    refine ⟨id, fun hc => hc.snoc waiting rfl fun _ => rfl, fun hv ha => ⟨fun h => absurd h (stays rfl rfl hv), ?_⟩,
      fun hr => ⟨?_, hr.unloaded, hr.before⟩⟩
    · rw [HoldQueue.tags, List.filterMap_append, List.filterMap_cons, tagged, List.filterMap_nil]
      exact ha.accounts.accepted hs _
    · have numbers := hr.numbers
      rw [State.dropNumbers_eq] at numbers ⊢
      rwa [map_updateTagged (Drop.accepted_number _)]

theorem keeps_execEnd {t : State} (ht : execEnd s = .next t) : s.Keeps s.QueueLaw t := by
  cases ht
  split
  · exact .refl s
  split
  next op next hf =>
    have accepted (row : Nat) : s.Keeps s.QueueLaw (s.accept op row).offerAnew := by
      have joined : s.Keeps s.QueueLaw (s.accept op row) :=
        (s.keeps_accept op row).weaken fun h => h.not_vacant (by rw [hf]; nofun)
      unfold State.offerAnew
      split
      · exact keeps_settled joined
      · exact joined
    split
    · exact s.beside_endConsumption.keeps
    · exact accepted _
    · exact accepted _
    · exact accepted _
  all_goals exact .refl s

/-! ### The media side (R65, R72 to R77) -/

theorem CommitLawBut.of_eq {t : State} {d : Die} (h : s.CommitLawBut d) (hq : t.queue.entries = s.queue.entries)
    (hc : ∀ d, (t.die d).committing = (s.die d).committing) : t.CommitLawBut d := by
  refine ⟨fun d' hd => ?_, by rw [hc]; exact h.idle, ?_⟩
  · rw [hc, HoldQueue.onDie, hq]
    exact h.others d' hd
  · rw [HoldQueue.onDie, hq]
    exact h.younger

/-- A die gives up its operation: its oldest entry may still be COMMITTING. -/
theorem CommitLaw.withDie (h : s.CommitLaw) {d : Die} {x : DieState} (hx : x.committing = false) :
    (s.withDie d x).CommitLawBut d where
  others d' hd := by
    rw [withDie_die, if_neg hd, withDie_queue]
    exact State.commitLaw_iff.1 h d'
  idle := by rw [withDie_die_self, hx]
  younger := by
    rw [withDie_queue]
    exact h.younger d

/-- The result of the operation that a die was busy with, once the die is IDLE or OFFLINE. -/
theorem keeps_result {A : Prop} {u : State} {d : Die} {op : MediaOp} {x : DieState} (hd : s.die d = .busy op)
    (hx : x.committing = false) (hu : (s.withDie d x).Beside u) (result : MediaResult) (data : Page) :
    s.Keeps A (u.handResult d op.requester result data) := by
  have freed := s.around_withDie d x
  refine keeps_handResult (freed.trans hu.toAround) (fun _ hc => (hc.withDie hx).of_eq hu.entries hu.committing)
    (fun ho => ?_) result data
  refine (beside_withDie ?_).trans hu
  rw [hx, hd]
  simpa [DieState.committing] using ho

theorem beside_releaseLines (s : State) : s.Beside s.releaseLines := beside_fewerServices (fun _ => id) rfl

theorem beside_setPhase {d : Die} {op : MediaOp} (hd : s.die d = .busy op) (phase : Phase) :
    s.Beside (s.setPhase d op phase) :=
  beside_withDie (by rw [hd]; rfl)

theorem keeps_completeMedia {A : Prop} {d : Die} {op : MediaOp} (hd : s.die d = .busy op) (r : MediaResult) (data : Page) :
    s.Keeps A (s.completeMedia d op r data) := by
  unfold State.completeMedia
  refine keeps_settled (keeps_result hd (x := .idle) rfl ?_ r data)
  split
  · exact .refl _
  · exact State.beside_countFailure _

theorem keeps_timeOut {A : Prop} {d : Die} {op : MediaOp} (hd : s.die d = .busy op) (start : Tick) (timeoutMs : Nat) :
    s.Keeps A (s.timeOut d op start timeoutMs) := by
  have recorded (u : State) (cause : OfflineCause) : u.Beside (u.recordOffline d op cause start timeoutMs) :=
    u.beside_record (by nofun)
  have counted := State.beside_countFailure (s.withDie d .offline)
  have failed : s.Keeps A (((s.withDie d .offline).countFailure).handResult d op.requester (.fail .timeout) []) :=
    keeps_result hd rfl counted _ _
  unfold State.timeOut
  dsimp only
  split
  · exact keeps_result hd rfl (recorded _ _) _ _
  all_goals exact failed.trans (recorded _ _).keeps

theorem beside_execCommandTransferEnd {d : Die} {t : State} (ht : execCommandTransferEnd d s = .next t) : s.Beside t := by
  cases ht
  split
  · exact .refl s
  · exact .refl s
  next op hd =>
    split
    · exact s.beside_releaseLines.trans (beside_setPhase (by exact hd) _)
    · exact .refl s

theorem keeps_execMrdySeenHigh {A : Prop} {d : Die} {t : State} (ht : execMrdySeenHigh d s = .next t) : s.Keeps A t := by
  cases ht
  split
  · exact .refl s
  · exact .refl s
  next op hd =>
    have ready (phase : Phase) : s.Keeps A (s.setPhase d op phase).handLines :=
      ((beside_setPhase hd phase).trans (State.beside_handLines _)).keeps
    split
    · split
      · exact ready _
      · exact ready _
      · exact ready _
      · exact keeps_completeMedia hd _ _
    all_goals exact .refl s

theorem beside_execReadoutEnd {d : Die} {page : Page} {t : State} (ht : execReadoutEnd d page s = .next t) :
    s.Beside t := by
  cases ht
  split
  · exact .refl s
  · exact .refl s
  next op hd =>
    split
    · exact (s.beside_releaseLines.trans (beside_setPhase (by exact hd) _)).trans (State.beside_handLines _)
    · exact .refl s

theorem keeps_execMediaOperationComplete {A : Prop} {d : Die} {status : Byte} {t : State}
    (ht : execMediaOperationComplete d status s = .next t) : s.Keeps A t := by
  cases ht
  split
  · exact .refl s
  · exact .refl s
  next op hd =>
    split
    · split
      · exact s.beside_releaseLines.keeps.trans (keeps_completeMedia (by exact hd) _ _)
      · exact .refl s
    all_goals exact .refl s

theorem keeps_execDieTimeout {A : Prop} {d : Die} {t : State} (ht : execDieTimeout d s = .next t) : s.Keeps A t := by
  cases ht
  split
  · exact .refl s
  · exact .refl s
  next op hd =>
    split
    · split
      · exact keeps_settled (keeps_timeOut hd _ _)
      · exact .refl s
    all_goals exact .refl s

end State

end Sys2Proof.Machine
end

section
/-! The failed-row table, the commits, the Drop Monitor's account and the DROP records (R47, R57, R97, R152) at the commands
of the motion and battery lines, of the supply, of the line reset and of the Timebase; and the obligations. -/

namespace Sys2Proof.Machine

/-- A merge timer that is due runs in FALLING, where the drop settles at its expiry (R87). -/
theorem DropMonitor.keeps_settle_of_due {d : DropMonitor} (h : d.mergeTimer.due = true) (params : DropParams) :
    d.Keeps (d.settle params) := by
  refine ⟨fun tags ha => ?_, fun _ => id, rfl⟩
  have falling : d.state ≠ .calm := by
    intro hs
    rw [(ha.timers.calm hs).1] at h
    cases h
  exact (keeps_settle falling params).accounts tags ha

theorem Sequence.advance_spec (q : Sequence) :
    q.advance.beforeLoad = q.beforeLoad ∧ (q.advance = .flushNote ↔ q = .flushNote) := by
  cases q with
  | profileScan purpose page best failed => cases purpose <;> simp [Sequence.advance, Sequence.beforeLoad]
  | _ => simp [Sequence.advance, Sequence.beforeLoad]

theorem DieRecord.advance_committing (r : DieRecord) : r.advance.state.committing = r.state.committing := by
  unfold DieRecord.advance
  split
  · rfl
  · rfl
  next op hop => rw [hop]; rfl

theorem Sequence.beforeLoad_of_settleDue {q : Sequence} (h : q.settleDue = true) : q.beforeLoad = true := by
  cases q with
  | settling elapsed => rfl
  | _ => cases h

namespace State

variable {s : State}

/-! ### The motion lines and their timers (R80 to R94) -/

theorem keeps_withDrop {A : Prop} {d : DropMonitor} (hd : s.drop.Keeps d) : s.Keeps A (s.withDrop d) :=
  (leaves_withDrop hd).keeps

/-- The line's level changes, and the Drop Monitor acts on it. -/
theorem keeps_edge {A : Prop} {p : LineLevels} {d : DropMonitor} (hd : s.drop.Keeps d) :
    s.Keeps A ((s.withPins p).withDrop d) :=
  (s.beside_withPins p).keeps.trans (keeps_withDrop hd)

theorem keeps_closeDrop {A : Prop} (s : State) (ceiling : Bool) : s.Keeps A (s.closeDrop ceiling) :=
  ((leaves_withDrop (s.drop.keeps_close s.tick ceiling)).trans (State.leaves_reportDrops _)).keeps

theorem keeps_suspendFreeFall {A : Prop} (s : State) (drop : Tick) (ceilingMs : Nat) :
    s.Keeps A (s.suspendFreeFall drop ceilingMs) := by
  unfold State.suspendFreeFall
  split
  · exact (keeps_withDrop (s.drop.keeps_stamps (some s.tick) s.drop.ffallSince)).trans
      (State.beside_record _ (by nofun)).keeps
  · exact .refl s

theorem keeps_execFfallRise {A : Prop} {t : State} (ht : execFfallRise s = .next t) : s.Keeps A t := by
  have stamped : s.drop.Keeps { s.drop with ffallSince := some s.tick } :=
    s.drop.keeps_stamps s.drop.suspended (some s.tick)
  have edge := keeps_edge (A := A) (p := { s.pins with ffall := true }) stamped
  cases ht
  split
  · exact .refl s
  · dsimp only
    split
    next hs => exact edge.trans (keeps_withDrop (DropMonitor.keeps_depart (by exact hs) _ _ _ _))
    · exact edge.trans (keeps_withDrop (DropMonitor.keeps_rise _ _))
    · exact edge.trans (keeps_withDrop (DropMonitor.keeps_rise _ _))

theorem keeps_execFfallFall {A : Prop} {t : State} (ht : execFfallFall s = .next t) : s.Keeps A t := by
  cases ht
  split
  · dsimp only
    split
    · exact (keeps_edge (s.drop.keeps_stamps none s.drop.ffallSince)).trans (State.beside_record _ (by nofun)).keeps
    · split
      · exact (s.beside_withPins _).keeps
      next hs => exact keeps_edge (DropMonitor.keeps_fallInFalling hs _ _)
      · exact keeps_edge (s.drop.keeps_endOnset _)
  · exact .refl s

theorem keeps_execFimpRise {A : Prop} {t : State} (ht : execFimpRise s = .next t) : s.Keeps A t := by
  cases ht
  split
  · exact .refl s
  · dsimp only
    split
    next hs =>
      split
      · exact keeps_edge (DropMonitor.keeps_depart hs _ _ _ _)
      · exact (s.beside_withPins _).keeps
    next hs => exact keeps_edge (DropMonitor.keeps_impactFalling hs _ _)
    next hs => exact keeps_edge (DropMonitor.keeps_impactSettling hs _ _)

theorem keeps_execFimpFall {A : Prop} {t : State} (ht : execFimpFall s = .next t) : s.Keeps A t := by
  cases ht
  split
  · exact keeps_edge (s.drop.keeps_endImpact _)
  · exact .refl s

theorem keeps_execMergeTimerExpiry {A : Prop} {t : State} (ht : execMergeTimerExpiry s = .next t) : s.Keeps A t := by
  cases ht
  split
  next hd => exact keeps_withDrop (DropMonitor.keeps_settle_of_due hd _)
  · exact .refl s

theorem keeps_execSettleTimerExpiry {A : Prop} {t : State} (ht : execSettleTimerExpiry s = .next t) : s.Keeps A t := by
  cases ht
  split
  · exact keeps_settled (s.keeps_closeDrop false)
  · exact .refl s

theorem keeps_execCeilingTimerExpiry {A : Prop} {t : State} (ht : execCeilingTimerExpiry s = .next t) : s.Keeps A t := by
  cases ht
  split
  · exact keeps_settled ((s.keeps_closeDrop true).trans (State.keeps_suspendFreeFall _ _ _))
  · exact .refl s

/-! ### The battery lines (R106 to R122) -/

theorem beside_takeBatteryEdge (s : State) (edge : HeldEdge) : s.Beside (s.takeBatteryEdge edge) := by
  unfold State.takeBatteryEdge
  split
  · exact s.beside_withGauge _
  · exact s.beside_batteryEdge edge

theorem beside_execGateEnd {t : State} (ht : execGateEnd s = .next t) : s.Beside t := by
  cases ht
  split
  · unfold State.endGate
    dsimp only
    split
    · exact s.beside_withGauge _
    · exact (s.beside_withGauge _).trans (State.beside_record _ (by nofun))
  · exact .refl s

theorem beside_execMinuteBoundary {t : State} (ht : execMinuteBoundary s = .next t) : s.Beside t := by
  cases ht
  split
  · exact s.beside_withGauge _
  · exact .refl s

theorem beside_execPkpresFall {t : State} (ht : execPkpresFall s = .next t) : s.Beside t := by
  cases ht
  split
  · exact (s.beside_withPins _).trans (State.beside_takeBatteryEdge _ _)
  · exact .refl s

theorem beside_execPkpresRise {t : State} (ht : execPkpresRise s = .next t) : s.Beside t := by
  cases ht
  split
  · exact .refl s
  · exact (s.beside_withPins _).trans (State.beside_takeBatteryEdge _ _)

/-! ### The supply (R129 to R134) -/

theorem keeps_execStartUpSettleEnd {A : Prop} {t : State} (ht : execStartUpSettleEnd s = .next t) : s.Keeps A t := by
  cases ht
  split
  next hd =>
    have before := Sequence.beforeLoad_of_settleDue hd
    split
    · exact keeps_settled (beside_ask (by nofun) (fun _ => before) (by nofun)).keeps
    · exact keeps_settled (keeps_stopStartUp (.refl s) (.inl (.inl (.inl before))))
  · exact .refl s

theorem beside_flushFront (s : State) : s.Beside s.flushFront := by
  have idle (u : State) : u.Beside (u.withFrontState .idle) := u.beside_withFrontState _
  unfold State.flushFront
  dsimp only
  split
  · exact s.beside_deselect
  · exact (idle s).trans (State.beside_deselect _)
  · exact (s.beside_abandonRead.trans (idle _)).trans (State.beside_deselect _)
  · exact (idle s).trans (State.beside_deselect _)
  · exact s.beside_dropReceiving.trans (State.beside_deselect _)
  · exact (idle s).trans (State.beside_deselect _)

theorem beside_lineFront (s : State) : s.Beside s.lineFront := by
  have idle (u : State) : u.Beside (u.withFrontState .idle) := u.beside_withFrontState _
  unfold State.lineFront
  dsimp only
  split
  · exact s.beside_withFront _
  · exact (idle s).trans (State.beside_withFront _ _)
  · exact (s.beside_abandonRead.trans (idle _)).trans (State.beside_withFront _ _)
  · exact (idle s).trans (State.beside_withFront _ _)
  · exact s.beside_dropReceiving.trans (State.beside_withFront _ _)
  · exact (idle s).trans (State.beside_withFront _ _)

/-- The Service Controller goes over to FLUSHING or LINE_RESET, where entries may be held. -/
theorem beside_enter {c : Controller} (hs : c.state = .flushing ∨ c.state = .lineReset)
    (hq : c.sequence = s.control.sequence ∨ c.sequence = .drain) : s.Beside (s.withControl c) where
  entries := rfl
  rows := id
  drop := rfl
  numbers := List.suffix_rfl
  vacant := by
    rintro ((h | h | h | h) | h)
    · rcases hq with hq | hq <;> rw [withControl_control, hq] at h
      · exact .inl (.inl (.inl h))
      · cases h
    · rcases hq with hq | hq <;> rw [withControl_control, hq] at h
      · exact .inl (.inl (.inr (.inl h)))
      · cases h
    · rw [withControl_control] at h
      rcases hs with hs | hs <;> rw [hs] at h <;> cases h
    · rw [withControl_control] at h
      rcases hs with hs | hs <;> rw [hs] at h <;> cases h
    · exact .inl (.inr h)
  before := by
    rw [withControl_control]
    rcases hq with hq | hq <;> rw [hq]
    · exact id
    · nofun
  committing _ := rfl

theorem keeps_enterFlushing {A : Prop} (s : State) : s.Keeps A s.enterFlushing := by
  have begun : s.Beside s.flushControl := beside_enter (.inl rfl) (.inr rfl)
  have fronted := begun.trans (State.beside_flushFront _)
  have detached : s.Keeps A (s.flushControl.flushFront.withQueue s.flushControl.flushFront.queue.detach) :=
    fronted.keeps.trans (State.keeps_detach _)
  unfold State.enterFlushing
  refine keeps_settled (detached.trans ?_)
  exact (State.beside_restand _ (fun _ => id) rfl .disregarded).keeps.trans (keeps_withDrop (DropMonitor.keeps_markDip _))

theorem keeps_execSupgoodFall {A : Prop} {t : State} (ht : execSupgoodFall s = .next t) : s.Keeps A t := by
  have low := s.beside_withPins { s.pins with supgood := false }
  cases ht
  split
  · dsimp only
    split
    next hs => exact keeps_settled (keeps_stopStartUp low (.inl (.inl (.inr (.inr (.inl hs))))))
    · exact low.keeps.trans (State.keeps_enterFlushing _)
    · exact low.keeps.trans (State.keeps_enterFlushing _)
    · exact low.keeps
    · exact keeps_settled (low.trans (State.beside_stopRecovery _)).keeps
  · exact .refl s

theorem keeps_execSupgoodRise {A : Prop} {t : State} (ht : execSupgoodRise s = .next t) : s.Keeps A t := by
  have high := s.beside_withPins { s.pins with supgood := true }
  cases ht
  split
  · exact .refl s
  · dsimp only
    split
    case h_5 hs => exact keeps_settled (keeps_beginRecovery high (.inl (.inl (.inr (.inr (.inr hs))))))
    all_goals exact high.keeps

theorem keeps_execRsvgoodFall {A : Prop} {t : State} (ht : execRsvgoodFall s = .next t) : s.Keeps A t := by
  have low := s.beside_withPins { s.pins with rsvgood := false }
  cases ht
  split
  · dsimp only
    split
    case h_4 => exact keeps_settled (low.trans (beside_withControl (by exact ⟨rfl, rfl⟩))).keeps
    all_goals exact low.keeps
  · exact .refl s

theorem beside_execRsvgoodRise {t : State} (ht : execRsvgoodRise s = .next t) : s.Beside t := by
  cases ht
  split
  · exact .refl s
  · exact s.beside_withPins _

/-! ### The line reset (R182) and the Timebase (R1) -/

theorem beside_clearPatience (s : State) : s.Beside (s.withMedia s.media.clearPatience) :=
  beside_mapDies (f := fun r => { r with patience := 0 }) (fun _ => rfl) rfl rfl

theorem keeps_beginLineReset (s : State) : s.Keeps s.QueueLaw s.beginLineReset := by
  have marked : s.Beside (s.lineControl (s.queue.entries.any Entry.withdrawable)) :=
    beside_enter (.inr rfl) (.inl rfl)
  have fronted := marked.trans (State.beside_lineFront _)
  have withdrawn : s.Keeps s.QueueLaw (s.lineControl (s.queue.entries.any Entry.withdrawable)).lineFront.withdraw := by
    have older : s.QueueLaw → ∀ e ∈
        (s.lineControl (s.queue.entries.any Entry.withdrawable)).lineFront.queue.entries.dropLast, e.disposition = .posted := by
      rw [fronted.entries]
      exact fun h => h.awaiting
    have left := State.keeps_withdraw (s.lineControl (s.queue.entries.any Entry.withdrawable)).lineFront
    exact ⟨fun hs => left.rows (fronted.rows hs), fun hs => left.commits (hs.of_eq fronted.entries fronted.committing),
      fun hq hs => left.drops (older hq) (fronted.accounted hs), fun hs => left.records (fronted.records hs)⟩
  unfold State.beginLineReset
  exact keeps_settled ((withdrawn.trans (State.keeps_detach _)).trans
    ((State.beside_clearPatience _).trans (State.beside_lineProbeNext _ _)).keeps)

theorem keeps_execLrst {t : State} (ht : execLrst s = .next t) : s.Keeps s.QueueLaw t := by
  cases ht
  split
  case h_1 => exact s.keeps_beginLineReset
  all_goals exact .refl s

theorem leaves_ticked (s : State) : s.Leaves [] s.ticked where
  entries := rfl
  rows := id
  committing d := by
    rw [ticked_die]
    exact DieRecord.advance_committing _
  accounts _ _ ha := s.drop.keeps_advance.accounts _ ha
  numbers hs := ⟨hs.numbers, hs.unloaded⟩
  loaded := rfl
  vacant := by
    obtain ⟨before, flush⟩ := s.control.sequence.advance_spec
    unfold State.Vacant Controller.Vacates
    simp only [ticked_control, ticked_media, before, flush]
    exact .inl
  before ht := by
    rwa [ticked_control, (s.control.sequence.advance_spec).1] at ht

/-! ### Power-on (R169) -/

theorem failedRowLaw_powerOn (levels : LineLevels) (free : Nat) (pending : List Instr) :
    (State.powerOn levels free pending).FailedRowLaw := ⟨Nat.zero_le _, .nil⟩

theorem commitLaw_powerOn (levels : LineLevels) (free : Nat) (pending : List Instr) :
    (State.powerOn levels free pending).CommitLaw :=
  State.commitLaw_iff.2 fun d => by fin_cases d <;> rfl

theorem accounted_powerOn (levels : LineLevels) (free : Nat) (pending : List Instr) :
    (State.powerOn levels free pending).Accounted where
  vacant _ := rfl
  accounts := ⟨⟨Nat.zero_le _, Numbered.nil, nofun, nofun, fun h => absurd rfl h, nofun⟩,
    ⟨fun _ => ⟨rfl, rfl, rfl⟩, nofun, nofun, fun h => absurd rfl h⟩, nofun, nofun, .nil⟩

theorem dropRecordLaw_powerOn (levels : LineLevels) (free : Nat) (pending : List Instr) :
    (State.powerOn levels free pending).DropRecordLaw := ⟨nofun, fun _ => rfl, fun _ => rfl⟩

/-! ### Every command -/

theorem keeps_exec {c : Instr} {t : State} (ht : exec c s = .next t) : s.Keeps s.QueueLaw t := by
  cases c with
  | powerOn levels =>
    cases ht
    exact ⟨fun _ => failedRowLaw_powerOn _ _ _, fun _ => commitLaw_powerOn _ _ _, fun _ _ => accounted_powerOn _ _ _,
      fun _ => dropRecordLaw_powerOn _ _ _⟩
  | startUpSettleEnd => exact keeps_execStartUpSettleEnd ht
  | read => cases ht; exact (s.beside_takeOperation .read).keeps
  | program => cases ht; exact (s.beside_takeOperation .program).keeps
  | erase => cases ht; exact (s.beside_takeOperation .erase).keeps
  | status => exact (beside_execStatus ht).keeps
  | reset => exact keeps_execReset ht
  | unknownOperationByte byte => exact keeps_execUnknownOperationByte ht
  | addressByte byte => exact keeps_execAddressByte ht
  | dataByte byte => exact (beside_execDataByte ht).keeps
  | readStrobe => exact (beside_execReadStrobe ht).keeps
  | endStrobe => exact keeps_execEnd ht
  | commandTransferEnd die => exact (beside_execCommandTransferEnd ht).keeps
  | mrdySeenHigh die => exact keeps_execMrdySeenHigh ht
  | readoutEnd die page => exact (beside_execReadoutEnd ht).keeps
  | mediaOperationComplete die status => exact keeps_execMediaOperationComplete ht
  | dieTimeout die => exact keeps_execDieTimeout ht
  | ffallRise => exact keeps_execFfallRise ht
  | ffallFall => exact keeps_execFfallFall ht
  | fimpRise => exact keeps_execFimpRise ht
  | fimpFall => exact keeps_execFimpFall ht
  | mergeTimerExpiry => exact keeps_execMergeTimerExpiry ht
  | settleTimerExpiry => exact keeps_execSettleTimerExpiry ht
  | ceilingTimerExpiry => exact keeps_execCeilingTimerExpiry ht
  | qpulseRise qdir => cases ht; exact (s.beside_withGauge _).keeps
  | tfreqRise => cases ht; exact (s.beside_withGauge _).keeps
  | gateEnd => exact (beside_execGateEnd ht).keeps
  | minuteBoundary => exact (beside_execMinuteBoundary ht).keeps
  | chgdoneRise => cases ht; exact (s.beside_takeBatteryEdge .chgdone).keeps
  | pkemptyRise => cases ht; exact (s.beside_takeBatteryEdge .pkempty).keeps
  | pkpresFall => exact (beside_execPkpresFall ht).keeps
  | pkpresRise => exact (beside_execPkpresRise ht).keeps
  | supgoodFall => exact keeps_execSupgoodFall ht
  | supgoodRise => exact keeps_execSupgoodRise ht
  | rsvgoodFall => exact keeps_execRsvgoodFall ht
  | rsvgoodRise => exact (beside_execRsvgoodRise ht).keeps
  | lrst => exact keeps_execLrst ht
  | tick => cases ht; exact s.leaves_ticked.keeps

theorem DropRecordLaw.withPending (h : s.DropRecordLaw) (l : List Instr) : (s.withPending l).DropRecordLaw :=
  ⟨h.numbers, h.unloaded, h.before⟩

theorem QueueLaw.withPending (h : s.QueueLaw) (l : List Instr) : (s.withPending l).QueueLaw :=
  { h with sequence := { h.sequence with } }

theorem DropLaw.withPending (h : s.DropLaw) (l : List Instr) : (s.withPending l).DropLaw := { h with }

theorem CommitLaw.withPending (h : s.CommitLaw) (l : List Instr) : (s.withPending l).CommitLaw := { h with }

end State

/-! ### The obligations -/

/-- Settles O54. Rows join the table only through `addFailed` and leave it only through `clearFailed`. -/
theorem failedRowLawIsKept : Obligations.FailedRowLawIsKept :=
  fun _ _ h ht => step_keeps (P := State.FailedRowLaw) (fun _ _ h => h) (fun _ _ _ h he => (State.keeps_exec he).rows h) ht h

/-- Settles O57. A die commits only what it starts (`CommitLaw.startOldest`), its commit ends with the entry's departure
(`CommitLawBut.removeOldest`), and an entry that joins or leaves otherwise is WAITING. -/
theorem commitLawIsKept : Obligations.CommitLawIsKept :=
  fun _ _ h ht => step_keeps (fun _ l h => h.withPending l) (fun _ _ _ h he => (State.keeps_exec he).commits h) ht h

/-- The ring and the table hold few numbers beside the range of the counter. -/
theorem State.dropNumbers_length {s : State} (hr : s.ReportLaw) (hd : s.DropLaw) : s.dropNumbers.length ≤ 260 := by
  have ring := List.length_filterMap_le Record.dropNumber s.report.ring
  have held := hr.length
  have pending := hd.monitor.length
  unfold State.dropNumbers
  rw [List.length_append, List.length_map]
  omega

/-- Settles O56. The account of the tags is kept through the consequences of an event with `State.Accounted`, which holds of
a state that meets the queue's law and, unlike it, is kept between them (O53). -/
theorem dropLawIsKept : Obligations.DropLawIsKept := by
  refine ⟨fun s t hq hd ht => ?table, fun s t h ht => ?records, fun s hr hd h => ?order⟩
  case table =>
    rcases step_cases ht with ⟨-, rfl⟩ | ⟨c, rest, -, he⟩
    · exact hd
    · have queue := hq.withPending rest
      have kept := (State.keeps_exec he).drops queue (queue.accounted (hd.withPending rest))
      exact State.dropLaw_iff.2 kept.accounts
  case records =>
    exact step_keeps (fun _ l h => h.withPending l) (fun _ _ _ h he => (State.keeps_exec he).records h) ht h
  case order =>
    have few := s.dropNumbers_length hr hd
    exact Numbered.pairwise h.numbers (by omega)

end Sys2Proof.Machine
end

section
/-! The failed-row table (R57, R58) and the posting limit (R44, R130, R136). -/

namespace Sys2Proof.Machine

/-! ### Adding a row -/

section AddFailed

variable {table : List FailedRow} {block : Nat} {page : Option Nat}

/-- The record is in the table, or a record of the whole block is. -/
abbrev RowHeld (table : List FailedRow) (block : Nat) (page : Option Nat) : Prop :=
  (⟨block, none⟩ : FailedRow) ∈ table ∨ (⟨block, page⟩ : FailedRow) ∈ table

theorem rowHeld_iff : RowHeld table block page ↔
    ∃ x ∈ table, x.block = block ∧ (x.page = none ∨ x.page = page) := by
  constructor
  · rintro (h | h)
    · exact ⟨_, h, rfl, .inl rfl⟩
    · exact ⟨_, h, rfl, .inr rfl⟩
  · rintro ⟨⟨b, p⟩, h, rfl, rfl | rfl⟩
    · exact .inl h
    · exact .inr h

/-- The test `addFailed` makes first, for a row and for a whole block. -/
theorem any_covering_iff (p : Nat) :
    (table.any (fun x => x.block == block && (x.page.isNone || x.page == some p)) = true ↔
      RowHeld table block (some p)) ∧
    (table.any (fun x => x.block == block && x.page.isNone) = true ↔ RowHeld table block none) := by
  constructor <;> rw [rowHeld_iff] <;> simp

theorem addFailed_of_held (h : RowHeld table block page) : addFailed table ⟨block, page⟩ = (table, false) := by
  cases page with
  | some p => exact if_pos ((any_covering_iff p).1.2 h)
  | none => exact if_pos ((any_covering_iff 0).2.2 h)

/-- A whole block takes the place of its pages. -/
theorem addFailed_block (h : ¬ RowHeld table block none) (hb : ∃ x ∈ table, x.block = block) :
    addFailed table ⟨block, none⟩ = (table.filter (fun x => decide (x.block ≠ block)) ++ [⟨block, none⟩], false) := by
  have block_present : table.any (fun x => x.block == block) = true := by simpa using hb
  have others : table.filter (fun x => x.block != block) = table.filter (fun x => decide (x.block ≠ block)) :=
    List.filter_congr fun x _ => by rw [Bool.eq_iff_iff]; simp
  unfold addFailed
  dsimp only
  rw [if_neg (mt (any_covering_iff 0).2.1 h), if_pos block_present, others]

/-- Any other record that is not held joins as youngest. -/
theorem addFailed_appends (h : ¬ RowHeld table block page) (hb : page ≠ none ∨ ∀ x ∈ table, x.block ≠ block) :
    addFailed table ⟨block, page⟩ = appendFailed table ⟨block, page⟩ := by
  cases page with
  | some p => exact if_neg (mt (any_covering_iff p).1.1 h)
  | none =>
    have block_absent : ¬ table.any (fun x => x.block == block) = true := by
      simpa using hb.resolve_left (fun hn => hn rfl)
    unfold addFailed
    dsimp only
    rw [if_neg (mt (any_covering_iff 0).2.1 h), if_neg block_absent]

end AddFailed

/-- Settles O46. -/
theorem failedRowIsAdded : Obligations.FailedRowIsAdded := by
  refine ⟨HoldQueue.covered_iff, fun table block page hlength => ⟨addFailed_of_held, fun hn hp hb => ?block,
    fun hn hb hlt => ?joins, fun hn hb hfull => ?full⟩⟩
  case block =>
    subst hp
    exact addFailed_block hn hb
  case joins =>
    rw [addFailed_appends hn hb]
    exact if_pos hlt
  case full =>
    rw [addFailed_appends hn hb, appendFailed, if_neg (by omega), List.drop_one]

/-! ### The posting limit -/

section PostingLimit

variable {level : Level} {rres : Nat}

theorem postingLimit_reserve_low (level : Level) (rres : Nat) : postingLimit false level rres = 0 := rfl

theorem postingLimit_critical (rsvgood : Bool) (rres : Nat) : postingLimit rsvgood .critical rres = 0 := by
  cases rsvgood <;> rfl

theorem postingLimit_half (h : level = .low ∨ level = .unknown) : postingLimit true level rres = (rres - 1) / 2 := by
  rcases h with rfl | rfl <;> rfl

theorem postingLimit_normal (rres : Nat) : postingLimit true .normal rres = rres - 1 := rfl

theorem postingLimit_lt (rsvgood : Bool) (level : Level) (h : 2 ≤ rres) : postingLimit rsvgood level rres + 1 ≤ rres := by
  cases rsvgood with
  | false => rw [postingLimit_reserve_low]; omega
  | true =>
    cases level with
    | critical => rw [postingLimit_critical]; omega
    | low => rw [postingLimit_half (.inl rfl)]; omega
    | unknown => rw [postingLimit_half (.inr rfl)]; omega
    | normal => rw [postingLimit_normal]; omega

end PostingLimit

theorem exec_rsvgoodFall_outside {s : State} (hp : s.pins.rsvgood = true) (hs : s.control.state ≠ .flushing) :
    exec .rsvgoodFall s = .next (s.withPins { s.pins with rsvgood := false }) := by
  simp only [exec, execRsvgoodFall, hp, if_true]
  cases h : s.control.state with
  | flushing => exact absurd h hs
  | starting | service | lineReset | spent => rfl

theorem exec_rsvgoodFall_flushing {s : State} (hp : s.pins.rsvgood = true) (hs : s.control.state = .flushing) :
    exec .rsvgoodFall s = .next
      ((s.withPins { s.pins with rsvgood := false }).withControl { s.control with budget := 0 }).settled := by
  simp [exec, execRsvgoodFall, hp, hs]

theorem exec_rsvgoodRise_low {s : State} (hp : s.pins.rsvgood = false) :
    exec .rsvgoodRise s = .next (s.withPins { s.pins with rsvgood := true }) := by
  simp [exec, execRsvgoodRise, hp]

/-- Settles O41. -/
theorem postingLimitFollowsLineAndLevel : Obligations.PostingLimitFollowsLineAndLevel := by
  refine ⟨⟨fun s hp => ⟨fun hs => ?outside, fun hs => exec_rsvgoodFall_flushing hp hs⟩, fun s hp => ?rise⟩,
    fun rsvgood level rres hr => ?limit, by decide⟩
  case outside => exact ⟨_, exec_rsvgoodFall_outside hp hs, rfl, postingLimit_reserve_low _ _⟩
  case rise =>
    refine ⟨_, exec_rsvgoodRise_low hp, rfl, fun hl => ?_, fun hl => postingLimit_half hl, fun hl => ?_⟩
    · exact (congrArg (postingLimit true · s.control.rres) hl).trans (postingLimit_critical true _)
    · exact (congrArg (postingLimit true · s.control.rres) hl).trans (postingLimit_normal _)
  case limit =>
    refine ⟨?_, fun hp hl => ?_, fun hp hl => ?_, postingLimit_lt rsvgood level hr⟩
    · rintro (rfl | rfl)
      · exact postingLimit_reserve_low level rres
      · exact postingLimit_critical rsvgood rres
    · rw [hp, postingLimit_half hl]
    · rw [hp, hl, postingLimit_normal]

end Sys2Proof.Machine
end

section
/-! The note outcome (R58, R103, R111, R127, R153, R177, R180). -/

namespace Sys2Proof.Machine

/-! ### The rows of a note join the table (R57, R58) -/

/-- The table and the overflow flag, once the rows have joined in order. -/
def joinRows (rows : List FailedRow) (a : List FailedRow × Bool) : List FailedRow × Bool :=
  rows.foldl (fun a r => ((addFailed a.1 r).1, a.2 || (addFailed a.1 r).2)) a

theorem State.loadRows_eq (s : State) (rows : List FailedRow) :
    s.loadRows rows = { s with
      queue := { s.queue with failedRows := (joinRows rows (s.queue.failedRows, s.control.rowOverflow)).1 }
      control := { s.control with rowOverflow := (joinRows rows (s.queue.failedRows, s.control.rowOverflow)).2 } } := by
  induction rows generalizing s with
  | nil => rfl
  | cons r rows ih => exact ih (s.addFailedRow r).1

/-! ### The gauge (R111, R127) -/

/-- Tallied or not, after the conversion nothing is tallied. -/
theorem Gauge.convertTallies_eq (g : Gauge) : g.convertTallies = { g with
    net := if g.tallying then satNet (satNet (g.net + g.weight * g.rawDischarge) - g.weight * g.rawCharge) else g.net
    anchor := if g.tallying then g.anchor && decide (g.rawCharge = 0) else g.anchor
    rawDischarge := if g.tallying then 0 else g.rawDischarge
    rawCharge := if g.tallying then 0 else g.rawCharge
    tallying := false } := by
  unfold Gauge.convertTallies
  split
  · rfl
  next h =>
    cases g
    simpa using h

theorem State.endGaugeHold_released {s : State} (h : s.gauge.holding = false) : s.endGaugeHold = s :=
  if_neg (by simp [h])

theorem State.endGaugeHold_held {s : State} (h : s.gauge.holding = true) :
    s.endGaugeHold = s.gauge.held.foldl State.batteryEdge
      (s.withGauge { s.gauge.convertTallies with holding := false, held := [] }) :=
  if_pos h

theorem Gauge.restore_unseated {g : Gauge} (h : g.seated = false) (n : GaugeNote) : g.restore n = { g with
    learned := clampLearned g.nominalCu n.learned, state := .unknown, anchor := false, remaining := 0 } := by
  simp [Gauge.restore, h]

theorem Gauge.restore_valid {g : Gauge} {n : GaugeNote} (h : g.seated = true) (hn : n.valid = true) :
    g.restore n = { g with
      learned := clampLearned g.nominalCu n.learned, state := .valid, anchor := n.anchor, drawn := n.drawn
      remaining := min (clampLearned g.nominalCu n.learned) n.remaining, changePending := true } := by
  simp [Gauge.restore, h, hn]

theorem Gauge.restore_invalid {g : Gauge} {n : GaugeNote} (h : g.seated = true) (hn : n.valid = false) :
    g.restore n = { g with
      learned := clampLearned g.nominalCu n.learned, state := .unknown, anchor := false, drawn := n.drawn
      remaining := 0 } := by
  simp [Gauge.restore, h, hn]

theorem State.takeBatteryEdge_acts {s : State} (h : s.gauge.holding = false) (edge : HeldEdge) :
    s.takeBatteryEdge edge = s.batteryEdge edge :=
  if_neg (by simp [h])

/-! ### The starts (R177) -/

/-- A clean start, with the state as the end of the gauge's hold leaves it. -/
theorem State.cleanStart_eq {s held t : State} {page : Nat} {image : Page} {table : List FailedRow × Bool}
    (hheld : held = State.endGaugeHold
      { s.countersLoaded (noteDropCounter image) (noteSequence image) with gauge := s.gauge.restore (noteGauge image) })
    (htable : table = joinRows (noteRows image) (s.queue.failedRows, s.control.rowOverflow))
    (h : State.Opens { held with
        queue := { held.queue with failedRows := table.1 }
        control := { held.control with rowOverflow := table.2 || noteOverflow image } }
      (.startUp { cause := .powerOnClean, notePage := some page, counts := some (noteCounts image)
                  rows := some { count := table.1.length, overflow := noteOverflow image } }) t) :
    s.cleanStart page image = t := by
  have gauge : (s.loadCounters (noteDropCounter image) (noteSequence image)).gauge = s.gauge := by simp
  have queue : held.queue = s.queue := by
    rw [hheld, (State.endGaugeHold_frame _).2.2.2.1, ← State.loadCounters_eq]
    simp
  have control : held.control = s.control := by
    rw [hheld, ← State.loadCounters_eq]
    simp
  have restored : ((s.loadCounters (noteDropCounter image) (noteSequence image)).withGauge
      (s.gauge.restore (noteGauge image))).endGaugeHold = held := hheld.symm
  rw [← queue, ← control] at htable
  unfold State.cleanStart
  dsimp only
  rw [gauge, restored, State.loadRows_eq, ← htable]
  exact State.openOrFinish_eq h

theorem State.settleNote_unclean {s : State} {page : Nat} {image : Page}
    (h : noteIsFlush image = false ∨ s.control.noteUsable = false) :
    s.settleNote (some (page, image)) = s.uncleanStart page image := by
  rcases h with h | h <;> simp [State.settleNote, h]

theorem State.settleNote_clean {s : State} {page : Nat} {image : Page} (hf : noteIsFlush image = true)
    (hu : s.control.noteUsable = true) : s.settleNote (some (page, image)) = s.cleanStart page image := by
  simp [State.settleNote, hf, hu]

/-- Settles O36. -/
theorem noteOutcomeIsSettled : Obligations.NoteOutcomeIsSettled := by
  refine ⟨State.answering_get, fun s t best => ⟨fun hb ho => ?none, fun page image hb => ⟨fun hu ho => ?unclean,
    fun hf hu ho => ?clean⟩⟩,
    fun g n => ⟨fun h => Gauge.restore_unseated h n, Gauge.restore_valid, Gauge.restore_invalid⟩,
    fun s => ⟨State.endGaugeHold_released, fun hh => ?hold⟩, fun s hh => ?edges⟩
  case none =>
    subst hb
    exact State.openOrFinish_eq ho
  case unclean =>
    subst hb
    rw [State.settleNote_unclean hu]
    exact State.openOrFinish_eq ho
  case clean =>
    subst hb
    rw [State.settleNote_clean hf hu]
    exact State.cleanStart_eq rfl rfl ho
  case hold =>
    rw [State.endGaugeHold_held hh, Gauge.convertTallies_eq]
    rfl
  case edges =>
    refine ⟨congrArg _ (State.takeBatteryEdge_acts hh _), congrArg _ (State.takeBatteryEdge_acts hh _), fun hp => ?_,
      fun hp => ?_⟩
    · have low : (s.withPins { s.pins with pkpres := false }).gauge.holding = false := hh
      simp only [exec, execPkpresFall, hp, if_true, State.takeBatteryEdge_acts low]
      rfl
    · have high : (s.withPins { s.pins with pkpres := true }).gauge.holding = false := hh
      simp only [exec, execPkpresRise, hp, Bool.false_eq_true, if_false, State.takeBatteryEdge_acts high]
      rfl

end Sys2Proof.Machine
end

section
/-! The end of the drain, the FLUSH note, and the end of the line reset (R55, R71, R137, R138, R141 to R144, R172, R183). -/

namespace Sys2Proof.Machine

/-! ### The end of the drain (R137) -/

theorem State.drainEnded_iff {s : State} : s.drainEnded = true ↔
    s.queue.entries = [] ∨ s.control.budget ≤ 1 ∧ ∀ e ∈ s.queue.entries, e.progress = .waiting := by
  have waiting (e : Entry) : ¬ e.progress = .committing ↔ e.progress = .waiting := by cases e.progress <;> simp
  simp [State.drainEnded, HoldQueue.committing, waiting]

theorem State.sequenceAction_drain {s : State} (h : s.control.sequence = .drain) :
    s.sequenceAction = if s.drainEnded then some s.endDrain else none := by
  simp [State.sequenceAction, h]

/-- The note is requested where the block is usable and a unit is left. -/
theorem State.endDrain_noted {s : State} (hu : s.control.noteUsable = true) (hb : 1 ≤ s.control.budget) :
    s.endDrain = s.loseEntries.asking .flushNote (.flushNote s.loseEntries.composeFlushNote) := by
  have usable : (s.loseEntries.control.noteUsable && decide (1 ≤ s.loseEntries.control.budget)) = true := by simp [hu, hb]
  unfold State.endDrain
  dsimp only
  rw [if_pos usable]
  rfl

theorem State.endDrain_skipped {s : State} (h : s.control.noteUsable = false ∨ s.control.budget = 0) :
    s.endDrain = s.loseEntries.flushEnded .skipped := by
  have skipped : ¬ (s.loseEntries.control.noteUsable && decide (1 ≤ s.loseEntries.control.budget)) = true := by
    rcases h with h | h <;> simp [h]
  unfold State.endDrain
  dsimp only
  rw [if_neg skipped]
  rfl

theorem State.composeFlushNote_loseEntries (s : State) : s.loseEntries.composeFlushNote =
    flushNote s.tick s.loseEntries.drop.counter s.loseEntries.report.next s.gauge.toNote s.loseEntries.queue.failedRows
      s.loseEntries.control.rowOverflow s.loseEntries.control.counts := by
  have tick : s.loseEntries.tick = s.tick := by simp
  have gauge : s.loseEntries.gauge = s.gauge := by simp
  rw [State.composeFlushNote, tick, gauge]

/-! ### The FLUSH note (R141, R143, R144) -/

theorem State.startService_flushNote_skipped {s : State} {d : Die} {r : ServiceRequest} {image : Page}
    (hr : r.op = .flushNote image) (hb : s.control.budget = 0) :
    s.startService d r = (s.takeRequest r).flushEnded .skipped := by
  rw [State.startService, hr]
  exact if_pos hb

theorem State.startService_flushNote {s : State} {d : Die} {r : ServiceRequest} {image : Page} {page : Nat}
    (hr : r.op = .flushNote image) (hb : 1 ≤ s.control.budget) (hs : s.control.state = .flushing)
    (hp : s.control.nextNotePage = some page) : s.startService d r =
      (((s.takeRequest r).startMedia d .program (some (noteRow1 page)) image (.service r)).withControl
        { s.control with budget := s.control.budget - 1, nextNotePage := some (page + 1) }) := by
  have row : s.serviceRow (.flushNote image) = some (noteRow1 page) := by rw [State.serviceRow, hp]; rfl
  have used : s.control.nextNotePage.map (· + 1) = some (page + 1) := by rw [hp]; rfl
  rw [State.startService, hr, ← used]
  dsimp only
  rw [if_neg (by omega), row]
  exact if_pos hs

theorem State.serviceDone_flushNote {s : State} (hs : s.control.sequence = .flushNote) (image : Page) (r : MediaResult) :
    s.serviceDone { op := .flushNote image, standing := .awaited } r =
      (s.noteWritten (.flushNote image) r).flushEnded (if r.passed then .written else .failed) := by
  simp only [State.serviceDone, State.sequenceResult, hs]
  rfl

/-! ### The end of the line reset (R172, R183) -/

theorem State.sequenceAction_lineWait {s : State} (h : s.control.sequence = .lineWait) :
    s.sequenceAction = if s.queue.entries = [] then some (s.beginScan .lineReset) else none := by
  simp [State.sequenceAction, h]

theorem State.beginScan_lineReset (s : State) : s.beginScan .lineReset =
    if s.die 0 ≠ .offline then s.asking (.profileScan .lineReset 0 none 0) (.profileRead 0)
    else (s.applyAtLineReset .unread).lineResetEnded := by
  unfold State.beginScan
  simp only [decide_eq_true_eq]
  rfl

/-! ### The obligation -/

/-- Settles O37. -/
theorem flushAndLineResetEnd : Obligations.FlushAndLineResetEnd := by
  refine ⟨fun s hs => ⟨fun hn => ?goesOn, fun he hu hb => ?noted, fun he hk => ?skipped⟩, fun s => ?losses,
    fun s r image page hr => ⟨fun hb => ?spent, fun hb hf hp => ?granted⟩,
    fun s d image data hs => ⟨fun bytes => ?written, fun cause => ?failed⟩,
    fun s hs => ⟨fun hq => ?waits, fun hq hd => ?scans, fun hq hd => ?unread⟩⟩
  case goesOn => rw [State.sequenceAction_drain hs, if_neg (mt State.drainEnded_iff.1 hn)]
  case noted =>
    rw [State.sequenceAction_drain hs, if_pos (State.drainEnded_iff.2 he), State.endDrain_noted hu hb,
      State.composeFlushNote_loseEntries]
    rfl
  case skipped => rw [State.sequenceAction_drain hs, if_pos (State.drainEnded_iff.2 he), State.endDrain_skipped hk]
  case losses =>
    refine congrFun (congrFun (congrArg List.foldl (funext fun a => funext fun e => ?_)) _) _
    exact State.reportUnwritten_eq (s := a) (e := e) .lost .lost rfl
  case spent =>
    rw [State.perform]
    exact State.startService_flushNote_skipped hr hb
  case granted =>
    rw [State.perform]
    exact State.startService_flushNote hr hb hf hp
  case written => exact State.serviceDone_flushNote hs image (.pass bytes)
  case failed => exact State.serviceDone_flushNote hs image (.fail cause)
  case waits => rw [State.sequenceAction_lineWait hs, if_neg hq]
  case scans => rw [State.sequenceAction_lineWait hs, if_pos hq, State.beginScan_lineReset, if_pos hd]
  case unread => rw [State.sequenceAction_lineWait hs, if_pos hq, State.beginScan_lineReset, if_neg (not_not_intro hd)]

end Sys2Proof.Machine
end

section
/-! A die that does not answer (04): its timer takes it OFFLINE (R39, R73, R76, R77). -/

namespace Sys2Proof.Machine

/-- A DIE_OFFLINE record shows a page for a READ or a PROGRAM alone (R76). -/
theorem MediaOp.recordPage_reset {op : MediaOp} (h : op.kind = .reset) : op.recordPage = none := by
  rw [MediaOp.recordPage, h]

theorem MediaOp.recordPage_of_ne_reset {op : MediaOp} (h : op.kind ≠ .reset) :
    op.recordPage = if op.kind = .erase then none else op.row.map (· % 128) := by
  unfold MediaOp.recordPage
  cases hk : op.kind with
  | reset => exact absurd hk h
  | read | program | erase => rfl

section TimeOut

variable {s : State} {d : Die} {op : MediaOp} {start : Tick} {timeoutMs elapsed : Nat}

/-- The record of a probe comes before its result, and no failure counts (R77). -/
theorem State.timeOut_reset (h : op.kind = .reset) : s.timeOut d op start timeoutMs =
    ((s.withDie d .offline).recordOffline d op .noAnswer start timeoutMs).handResult d op.requester
      (.fail .timeout) [] := by
  rw [State.timeOut, h]

/-- A READ, PROGRAM or ERASE counts as failed, and its result comes before the record (R39, R73). -/
theorem State.timeOut_of_ne_reset (h : op.kind ≠ .reset) : s.timeOut d op start timeoutMs =
    ((s.withDie d .offline).countFailure.handResult d op.requester (.fail .timeout) []).recordOffline d op .timeout
      start timeoutMs := by
  unfold State.timeOut
  cases hk : op.kind with
  | reset => exact absurd hk h
  | read | program | erase => rfl

theorem exec_dieTimeout_passed (hd : s.die d = .busy op) (hp : op.phase = .busy start timeoutMs elapsed)
    (ht : timeoutMs * 10 ≤ elapsed) : exec (.dieTimeout d) s = .next (s.timeOut d op start timeoutMs).settled := by
  simp [exec, execDieTimeout, hd, hp, ht]

end TimeOut

/-- Settles O19. -/
theorem dieTimeoutTakesTheDieOffline : Obligations.DieTimeoutTakesTheDieOffline := by
  intro d s op start timeoutMs elapsed hd hp ht media record
  rw [exec_dieTimeout_passed hd hp ht]
  refine ⟨fun hk => ?probe, fun hk => ?operation⟩
  case probe =>
    rw [State.timeOut_reset hk, State.recordOffline, MediaOp.recordPage_reset hk]
    rfl
  case operation =>
    rw [State.timeOut_of_ne_reset hk, State.recordOffline, MediaOp.recordPage_of_ne_reset hk]
    rfl

end Sys2Proof.Machine
end

section
/-! The consequences of an event (04): they are taken to the end, the lines are handed on, and in SERVICE the gauge and the
Service Controller are left alone (R65, R67, R71, R75, R77, R137, R183). -/

namespace Sys2Proof.Machine

/-! ### The transfers that join the lines (R65) -/

/-- A phase needs the lines unless it is the busy interval. -/
theorem Phase.isTransfer_iff {p : Phase} :
    p.isTransfer = true ↔ ∀ start timeoutMs elapsed, p ≠ .busy start timeoutMs elapsed := by
  cases p <;> simp [Phase.isTransfer]

theorem DieState.inTransfer_iff {x : DieState} : x.inTransfer = true ↔
    ∃ op, x = .busy op ∧ ∀ start timeoutMs elapsed, op.phase ≠ .busy start timeoutMs elapsed := by
  cases x with
  | idle | offline => simp [DieState.inTransfer]
  | busy op => simp [DieState.inTransfer, Phase.isTransfer_iff]

/-- The dies whose transfer is ready and is neither on the lines nor waiting for them. -/
def State.joining (s : State) : List Die :=
  allDies.filter (fun d => (s.die d).inTransfer && !s.media.lines.contains d)

theorem State.handLines_eq (s : State) :
    s.handLines = { s with media := { s.media with lines := s.media.lines ++ s.joining } } := rfl

theorem State.mem_joining {s : State} {d : Die} : d ∈ s.joining ↔ d ∉ s.media.lines ∧ ∃ op, s.die d = .busy op ∧
    ∀ start timeoutMs elapsed, op.phase ≠ .busy start timeoutMs elapsed := by
  rw [← DieState.inTransfer_iff]
  simp [State.joining, mem_allDies, and_comm]

/-- The dies join in ascending number. -/
theorem State.joining_ascending (s : State) : s.joining.Pairwise (· < ·) :=
  List.Pairwise.filter _ (by decide)

/-! ### The chain of consequences -/

/-- The fuel of an event is enough: the chain of single consequences ends where none is left. -/
theorem State.pump_consequences (s : State) : ∃ (n : Nat) (chain : Nat → State), chain 0 = s ∧
    (∀ i, i < n → (chain i).Consequence (chain (i + 1))) ∧ chain n = pump s.fuel s ∧ (chain n).AtRest := by
  obtain ⟨n, chain, hfirst, hnext, hlast⟩ := pump_chain s.fuel s
  refine ⟨n, chain, hfirst, fun i hi => State.micro_consequence (hnext i hi), hlast, ?_⟩
  rw [hlast]
  exact State.atRest_of_micro (pump_done s.fuel s le_rfl)

/-! ### The consequences in SERVICE -/

/-- In SERVICE, with no sequence and no service request: the gauge is as in `x`, and so is the Service Controller but for
the row-list overflow flag. -/
structure State.ServesAs (x t : State) : Prop where
  state : x.control.state = .service
  sequence : x.control.sequence = .none
  gauge : t.gauge = x.gauge
  services : t.media.services = []
  control : ∃ overflow, t.control = { x.control with rowOverflow := overflow }

namespace State.ServesAs

variable {x s : State} (h : x.ServesAs s)

include h

theorem of_frame {t : State} (hg : t.gauge = s.gauge) (hm : t.media.services = s.media.services)
    (hc : t.control = s.control) : x.ServesAs t where
  state := h.state
  sequence := h.sequence
  gauge := hg.trans h.gauge
  services := hm.trans h.services
  control := hc ▸ h.control

theorem control_state : s.control.state = .service := by
  obtain ⟨overflow, hc⟩ := h.control
  rw [hc]
  exact h.state

theorem control_sequence : s.control.sequence = .none := by
  obtain ⟨overflow, hc⟩ := h.control
  rw [hc]
  exact h.sequence

theorem not_mem_services (r : ServiceRequest) : r ∉ s.media.services := by simp [h.services]

/-- Outside FLUSHING a start takes no unit of the budget (R135). -/
theorem spendUnit_eq : s.spendUnit = s := if_neg (by simp [h.control_state])

/-- Outside FLUSHING and LINE_RESET an entry that leaves is not counted (R138, R182). -/
theorem countLeaving_eq (passed : Bool) : s.countLeaving passed = s := by
  rw [State.countLeaving, h.control_state]

theorem addFailedRow (r : FailedRow) : x.ServesAs (s.addFailedRow r).1 := by
  obtain ⟨overflow, hc⟩ := h.control
  exact { h with control := ⟨_, by rw [State.addFailedRow, hc]; rfl⟩ }

/-- A commit that fails adds its row to the failed-row table, and so may set the overflow flag (R51, R57). -/
theorem failCommit (e : Entry) (cause : FailCause) : x.ServesAs (s.failCommit e cause) := by
  have released : x.ServesAs (s.releaseFront e false) := h.of_frame (by simp) (by simp) (by simp)
  unfold State.failCommit
  dsimp only
  rw [h.countLeaving_eq]
  split
  · exact released.of_frame (by simp) (by simp) (by simp)
  · have added := released.addFailedRow e.failedRow
    unfold State.reportUnwritten
    exact added.of_frame (by simp) (by simp) (by simp)

theorem commitDone_fail (d : Die) (cause : FailCause) : x.ServesAs (s.commitDone d (.fail cause)) := by
  have left : x.ServesAs (s.withQueue { s.queue with entries := removeOldest d s.queue.entries }) :=
    h.of_frame rfl rfl rfl
  unfold State.commitDone
  split
  · exact h
  · exact left.failCommit _ cause

theorem startCommit (d : Die) (e : Entry) : x.ServesAs (s.startCommit d e) := by
  have marked : x.ServesAs (s.withQueue { s.queue with entries := updateOldest d commitEntry s.queue.entries }) :=
    h.of_frame rfl rfl rfl
  rw [State.startCommit, marked.spendUnit_eq]
  exact marked.of_frame rfl rfl rfl

/-- Dies are granted and what aims at an OFFLINE die fails; no request of the Service Controller is there to be taken, and
no sequence to go on. -/
theorem micro {t : State} (ht : s.micro = some t) : x.ServesAs t := by
  refine State.micro_keeps (P := x.ServesAs) ?free ?service ?front ?commit ?probe ?pass ?fail ?failFront ?failCommit
    ?scan ?drain s t h ht
  case free => exact fun s n hs => hs.of_frame rfl rfl rfl
  case service => exact fun s d r hs _ hr _ _ _ => absurd hr (hs.not_mem_services r)
  case front =>
    intro s d row contested hs _ _ _ _
    cases contested <;> exact hs.of_frame rfl rfl rfl
  case commit => exact fun s d e hs _ _ _ => hs.startCommit d e
  case probe => exact fun s r hs hr _ _ => absurd hr (hs.not_mem_services r)
  case pass => exact fun s r hs hr _ _ => absurd hr (hs.not_mem_services r)
  case fail => exact fun s r hs hr _ _ => absurd hr (hs.not_mem_services r)
  case failFront =>
    intro s d row hs _ _ _
    have taken : x.ServesAs (s.withMedia { s.media with frontRead := none }).countFailure := hs.of_frame rfl rfl rfl
    exact taken.of_frame (by simp) (by simp) (by simp)
  case failCommit =>
    intro s d e hs _ _
    have counted : x.ServesAs s.countFailure := hs.of_frame rfl rfl rfl
    exact counted.commitDone_fail d .offline
  case scan => exact fun s hs hq _ => absurd (hs.control_sequence.symm.trans hq) (by nofun)
  case drain => exact fun s hs hq _ => absurd (hs.control_sequence.symm.trans hq) (by nofun)

theorem settled : x.ServesAs s.settled :=
  State.settled_keeps (fun _ _ hs ht => hs.micro ht) (fun _ hs => hs.of_frame rfl rfl rfl) s h

end State.ServesAs

/-! ### The obligation -/

/-- Settles O23. -/
theorem everyConsequenceIsTaken : Obligations.EveryConsequenceIsTaken := by
  refine ⟨fun s => ?chain, State.settled_frame, fun s hstate hsequence hservices => ?service⟩
  case chain =>
    obtain ⟨n, chain, hfirst, hnext, hlast, hrest⟩ := s.pump_consequences
    refine ⟨n, chain, (chain n).joining, hfirst, hnext, hrest, (chain n).joining_ascending,
      fun d => State.mem_joining, ?_⟩
    rw [← State.handLines_eq, hlast]
    rfl
  case service =>
    have start : s.ServesAs s := ⟨hstate, hsequence, rfl, hservices, s.control.rowOverflow, rfl⟩
    exact ⟨start.settled.gauge, start.settled.services, start.settled.control⟩

end Sys2Proof.Machine
end

section
/-! The Drop Monitor's operations (05), one equation per case: the youngest drop, onsets and impacts, the departure from CALM
(R82 to R99). -/

namespace Sys2Proof.Machine

/-! ### Timers and parameters -/

theorem Timer.due_of_passed {t : Timer} {elapsed interval : Nat} (h : t = .running elapsed interval)
    (hp : interval ≤ elapsed) : t.due = true := by
  simp [h, Timer.due, hp]

theorem Timer.not_due {t : Timer}
    (h : t = .stopped ∨ ∃ elapsed interval, t = .running elapsed interval ∧ elapsed < interval) : t.due = false := by
  rcases h with rfl | ⟨elapsed, interval, rfl, hlt⟩
  · rfl
  · simpa [Timer.due] using hlt

theorem State.dropParams_of_latched {s : State} {p : DropParams} (h : s.drop.latched = some p) : s.dropParams = p := by
  simp [State.dropParams, DropMonitor.params, h]

theorem State.withPins_dropParams_of_latched {s : State} {p : DropParams} (h : s.drop.latched = some p) (l : LineLevels) :
    (s.withPins l).dropParams = p := State.dropParams_of_latched (s := s.withPins l) h

/-! ### An impact taken in FALLING (R88) -/

/-- A drop that was struck before, that knows no onset, or that is reopened only counts the impact. -/
theorem Drop.impactInFall_counts {x : Drop} (h : x.impacts ≠ 0 ∨ x.onsets = [] ∨ x.kind = .multiple) (stamp : Tick)
    (latency : Nat) : x.impactInFall stamp latency = x.addImpact := by
  unfold Drop.impactInFall
  cases ho : x.onsets with
  | nil => rfl
  | cons first more =>
    have counted : ¬ (x.impacts = 0 ∧ x.kind ≠ .multiple) := by
      rintro ⟨hi, hk⟩
      simp [hi, hk, ho] at h
    exact if_neg counted

/-- The first impact takes the span and the height (R95, R96). -/
theorem Drop.impactInFall_measures {x : Drop} {first : Onset} {more : List Onset} (hi : x.impacts = 0)
    (ho : x.onsets = first :: more) (hk : x.kind ≠ .multiple) (stamp : Tick) (latency : Nat) :
    x.impactInFall stamp latency = { x with
      impacts := 1, kind := if x.kind = .catch_ then .fall else x.kind
      measure := some
        { span := fallSpan stamp first.start latency, height := fallHeight (fallSpan stamp first.start latency) } } := by
  unfold Drop.impactInFall
  rw [ho]
  exact if_pos ⟨hi, hk⟩

namespace DropMonitor

/-! ### Departure from CALM (R82 to R84, R99) -/

/-- The monitor as it leaves CALM, but for the table and the counter: the parameters latched, the timers started, the drop
counted. -/
def leavingCalm (d : DropMonitor) (edge : DropEdge) (stamp : Tick) (params : DropParams) : DropMonitor :=
  match edge with
  | .ffall =>
    { d with state := .falling, latched := some params, openOnset := some stamp, total := d.total + 1
             ceilingTimer := Timer.startMs params.ceilingMs }
  | .fimp =>
    { d with state := .settling, latched := some params, impactStart := some stamp, total := d.total + 1
             ceilingTimer := Timer.startMs params.ceilingMs, settleTimer := Timer.startMs params.settleMs }

theorem depart_opens_eq {d : DropMonitor} (h : d.pending.length < 4) (edge : DropEdge) (stamp : Tick) (params : DropParams)
    (powerDip : Bool) : d.depart edge stamp params powerDip = { d.leavingCalm edge stamp params with
      counter := d.counter + 1
      pending := d.pending ++ [newDrop edge (d.counter + 1) stamp powerDip] } := by
  cases edge <;> simp [depart, leavingCalm, h]

theorem depart_merges_eq {d : DropMonitor} {older : List Drop} {x : Drop} (hp : d.pending = older ++ [x])
    (hl : older.length = 3) (edge : DropEdge) (stamp : Tick) (params : DropParams) (powerDip : Bool) :
    d.depart edge stamp params powerDip = { d.leavingCalm edge stamp params with
      pending := older ++ [x.merge edge stamp powerDip] } := by
  cases edge <;> simp [depart, leavingCalm, hp, hl]

/-! ### The open onset and the open impact measurement (R85, R94) -/

theorem endOnset_of_none {d : DropMonitor} (h : d.openOnset = none) (stamp : Tick) : d.endOnset stamp = d := by
  rw [endOnset, h]

theorem endImpact_of_none {d : DropMonitor} (h : d.impactStart = none) (stamp : Tick) : d.endImpact stamp = d := by
  rw [endImpact, h]

section Youngest

variable {d : DropMonitor} {older : List Drop} {x : Drop} (hp : d.pending = older ++ [x])

include hp

theorem youngest_eq (f : Drop → Drop) : d.youngest f = { d with pending := older ++ [f x] } := by
  simp [youngest, hp]

theorem endOnset_eq {start stamp : Tick} {y : Drop} (ho : d.openOnset = some start) (he : x.OnsetEnds start stamp y) :
    d.endOnset stamp = { d with openOnset := none, pending := older ++ [y] } := by
  simp only [endOnset, ho, youngest_eq hp, Drop.endOnset_eq he]

theorem endImpact_eq {start : Tick} (hi : d.impactStart = some start) (stamp : Tick) :
    d.endImpact stamp = { d with
      impactStart := none, pending := older ++ [x.keepWidth (min 65535 (stamp - start).toNat)] } := by
  simp only [endImpact, hi, youngest_eq hp]

/-! ### The edges of FFALL outside CALM (R86, R87, R90) -/

theorem rise_falling (hs : d.state = .falling) (stamp : Tick) : d.rise stamp = { d with
    mergeTimer := .stopped, openOnset := some stamp, pending := older ++ [x.beginOnset stamp] } := by
  simp only [rise, hs, youngest_eq hp]

theorem rise_settling (hs : d.state = .settling) (stamp : Tick) : d.rise stamp = { d with
    state := .falling, settleTimer := .stopped, openOnset := some stamp
    pending := older ++ [{ x.beginOnset stamp with falls := satAdd 65535 x.falls 1 }] } := by
  simp only [rise, hs, youngest_eq hp]

theorem fallInFalling_merges {start stamp : Tick} {y : Drop} {p : DropParams} (ho : d.openOnset = some start)
    (he : x.OnsetEnds start stamp y) (hm : p.mergeMs ≠ 0) : d.fallInFalling stamp p = { d with
      openOnset := none, pending := older ++ [y], mergeTimer := Timer.startMs p.mergeMs } := by
  rw [fallInFalling, if_neg hm, endOnset_eq hp ho he]

/-- A merge of 0 ends at once. -/
theorem fallInFalling_settles {start stamp : Tick} {y : Drop} {p : DropParams} (ho : d.openOnset = some start)
    (he : x.OnsetEnds start stamp y) (hm : p.mergeMs = 0) :
    d.fallInFalling stamp p = settle { d with openOnset := none, pending := older ++ [y] } p := by
  rw [fallInFalling, if_pos hm, endOnset_eq hp ho he]

/-! ### A rise of FIMP outside CALM (R88, R89) -/

theorem impactFalling_eq (stamp : Tick) (p : DropParams) : d.impactFalling stamp p = { d.settle p with
    impactStart := some stamp, pending := older ++ [x.impactInFall stamp p.latency] } := by
  rw [impactFalling, youngest_eq hp]
  rfl

theorem impactSettling_eq (stamp : Tick) (p : DropParams) : d.impactSettling stamp p = { d with
    settleTimer := Timer.startMs p.settleMs, impactStart := some stamp, pending := older ++ [x.addImpact] } := by
  rw [impactSettling, youngest_eq hp]

end Youngest

end DropMonitor

end Sys2Proof.Machine
end

section
/-! The edges of the motion lines (05): FFALL and FIMP, by the state of the Drop Monitor (R80 to R99). -/

namespace Sys2Proof.Machine

/-! ### FFALL -/

section Ffall

variable {s : State}

theorem exec_ffallRise_high (h : s.pins.ffall = true) : exec .ffallRise s = .next s := by
  simp [exec, execFfallRise, h]

theorem exec_ffallRise_calm (h : s.pins.ffall = false) (hs : s.drop.state = .calm) :
    exec .ffallRise s = .next ((s.withPins { s.pins with ffall := true }).withDrop
      (DropMonitor.depart { s.drop with ffallSince := some s.tick } .ffall s.tick s.control.settings.dropParams
        s.control.state.opensDipped)) := by
  rw [← ServiceState.dips_eq]
  simp [exec, execFfallRise, h, hs, State.departCalm]

theorem exec_ffallRise_moving (h : s.pins.ffall = false) (hs : s.drop.state ≠ .calm) :
    exec .ffallRise s = .next ((s.withPins { s.pins with ffall := true }).withDrop
      (DropMonitor.rise { s.drop with ffallSince := some s.tick } s.tick)) := by
  cases hd : s.drop.state with
  | calm => exact absurd hd hs
  | falling | settling => simp [exec, execFfallRise, h, hd]

theorem exec_ffallFall_low (h : s.pins.ffall = false) : exec .ffallFall s = .next s := by
  simp [exec, execFfallFall, h]

theorem exec_ffallFall_suspended {since : Tick} (h : s.pins.ffall = true) (hs : s.drop.suspended = some since) :
    exec .ffallFall s = .next ((s.withPins { s.pins with ffall := false }).resumeFreeFall since) := by
  simp [exec, execFfallFall, h, hs]

theorem exec_ffallFall_calm (h : s.pins.ffall = true) (hn : s.drop.suspended = none) (hs : s.drop.state = .calm) :
    exec .ffallFall s = .next (s.withPins { s.pins with ffall := false }) := by
  simp [exec, execFfallFall, h, hn, hs]

theorem exec_ffallFall_falling {p : DropParams} (h : s.pins.ffall = true) (hn : s.drop.suspended = none)
    (hs : s.drop.state = .falling) (hl : s.drop.latched = some p) :
    exec .ffallFall s = .next ((s.withPins { s.pins with ffall := false }).withDrop (s.drop.fallInFalling s.tick p)) := by
  simp [exec, execFfallFall, h, hn, hs, State.withPins_dropParams_of_latched hl]

theorem exec_ffallFall_settling (h : s.pins.ffall = true) (hn : s.drop.suspended = none) (hs : s.drop.state = .settling) :
    exec .ffallFall s = .next ((s.withPins { s.pins with ffall := false }).withDrop (s.drop.endOnset s.tick)) := by
  simp [exec, execFfallFall, h, hn, hs]

end Ffall

/-- Settles O25, by the state of the Drop Monitor. -/
theorem freeFallEdgesAct : Obligations.FreeFallEdgesAct := by
  refine ⟨⟨fun s => exec_ffallRise_high, fun s hlow => ?rise⟩, fun s => exec_ffallFall_low, fun s hhigh => ?fall⟩
  case' rise =>
    intro params departed pins
    refine ⟨fun hs hlt => ?opens, fun older x hs hp hlen => ?merges, fun older x hs hp => ?gap,
      fun older x hs hp => ?again⟩
  case' fall =>
    intro pins
    refine ⟨fun since hs => ?resumes, exec_ffallFall_calm hhigh, fun hn hs ho => ?ended,
      fun start older x y hn ho hp he => ⟨fun hs => ?settling, fun p hs hl => ⟨fun hm => ?merging, fun hm => ?settles⟩⟩⟩
  case opens =>
    have opened := DropMonitor.depart_opens_eq (d := { s.drop with ffallSince := some s.tick }) hlt
    rw [exec_ffallRise_calm hlow hs, opened]
    rfl
  case merges =>
    have merged := DropMonitor.depart_merges_eq (d := { s.drop with ffallSince := some s.tick }) hp hlen
    rw [exec_ffallRise_calm hlow hs, merged]
    rfl
  case gap =>
    have risen := DropMonitor.rise_falling (d := { s.drop with ffallSince := some s.tick }) hp hs
    rw [exec_ffallRise_moving hlow (by simp [hs]), risen]
    rfl
  case again =>
    have risen := DropMonitor.rise_settling (d := { s.drop with ffallSince := some s.tick }) hp hs
    rw [exec_ffallRise_moving hlow (by simp [hs]), risen]
    rfl
  case resumes =>
    rw [exec_ffallFall_suspended hhigh hs]
    rfl
  case ended =>
    rw [exec_ffallFall_settling hhigh hn hs, DropMonitor.endOnset_of_none ho]
    rfl
  case settling =>
    rw [exec_ffallFall_settling hhigh hn hs, DropMonitor.endOnset_eq hp ho he]
    rfl
  case merging =>
    rw [exec_ffallFall_falling hhigh hn hs hl, DropMonitor.fallInFalling_merges hp ho he hm]
    rfl
  case settles =>
    rw [exec_ffallFall_falling hhigh hn hs hl, DropMonitor.fallInFalling_settles hp ho he hm]
    rfl

/-! ### FIMP -/

section Fimp

variable {s : State}

theorem exec_fimpRise_high (h : s.pins.fimp = true) : exec .fimpRise s = .next s := by
  simp [exec, execFimpRise, h]

theorem exec_fimpRise_ignored (h : s.pins.fimp = false) (hs : s.drop.state = .calm)
    (hk : s.control.settings.knockHold = false) :
    exec .fimpRise s = .next (s.withPins { s.pins with fimp := true }) := by
  simp [exec, execFimpRise, h, hs, hk]

theorem exec_fimpRise_calm (h : s.pins.fimp = false) (hs : s.drop.state = .calm)
    (hk : s.control.settings.knockHold = true) :
    exec .fimpRise s = .next ((s.withPins { s.pins with fimp := true }).withDrop
      (s.drop.depart .fimp s.tick s.control.settings.dropParams s.control.state.opensDipped)) := by
  rw [← ServiceState.dips_eq]
  simp [exec, execFimpRise, h, hs, hk, State.departCalm]

theorem exec_fimpRise_falling {p : DropParams} (h : s.pins.fimp = false) (hs : s.drop.state = .falling)
    (hl : s.drop.latched = some p) :
    exec .fimpRise s = .next ((s.withPins { s.pins with fimp := true }).withDrop (s.drop.impactFalling s.tick p)) := by
  simp [exec, execFimpRise, h, hs, State.withPins_dropParams_of_latched hl]

theorem exec_fimpRise_settling {p : DropParams} (h : s.pins.fimp = false) (hs : s.drop.state = .settling)
    (hl : s.drop.latched = some p) :
    exec .fimpRise s = .next ((s.withPins { s.pins with fimp := true }).withDrop (s.drop.impactSettling s.tick p)) := by
  simp [exec, execFimpRise, h, hs, State.withPins_dropParams_of_latched hl]

theorem exec_fimpFall_low (h : s.pins.fimp = false) : exec .fimpFall s = .next s := by
  simp [exec, execFimpFall, h]

theorem exec_fimpFall_high (h : s.pins.fimp = true) :
    exec .fimpFall s = .next ((s.withPins { s.pins with fimp := false }).withDrop (s.drop.endImpact s.tick)) := by
  simp [exec, execFimpFall, h]

end Fimp

/-- Settles O26, by the state of the Drop Monitor. -/
theorem impactEdgesAct : Obligations.ImpactEdgesAct := by
  refine ⟨⟨fun s => exec_fimpRise_high, fun s hlow => ?rise⟩, fun s => exec_fimpFall_low, fun s hhigh hi => ?closed,
    fun s start older x hhigh hi hp => ?width⟩
  case' rise =>
    intro params departed pins
    refine ⟨exec_fimpRise_ignored hlow, fun hs hk hlt => ?opens, fun older x hp =>
      ⟨fun hs hk hlen => ?merges, fun p hl => ?struck⟩⟩
  case' struck =>
    intro struck
    refine ⟨fun hs => ?settling, fun hs hx => ?counts, fun first more n hs hi ho hkind hn => ?measures⟩
  case opens =>
    rw [exec_fimpRise_calm hlow hs hk, DropMonitor.depart_opens_eq hlt]
    rfl
  case merges =>
    rw [exec_fimpRise_calm hlow hs hk, DropMonitor.depart_merges_eq hp hlen]
    rfl
  case settling =>
    rw [exec_fimpRise_settling hlow hs hl, DropMonitor.impactSettling_eq hp]
    rfl
  case counts =>
    rw [exec_fimpRise_falling hlow hs hl, DropMonitor.impactFalling_eq hp, Drop.impactInFall_counts hx]
    rfl
  case measures =>
    have span : n = fallSpan s.tick first.start p.latency := hn
    rw [exec_fimpRise_falling hlow hs hl, DropMonitor.impactFalling_eq hp, Drop.impactInFall_measures hi ho hkind, ← span]
    rfl
  case closed =>
    rw [exec_fimpFall_high hhigh, DropMonitor.endImpact_of_none hi]
    rfl
  case width =>
    rw [exec_fimpFall_high hhigh, DropMonitor.endImpact_eq hp hi]
    rfl

end Sys2Proof.Machine
end

section
/-! The drop timers and the reports of closed drops (05): R87, R91, R92, R97, R100 to R103. -/

namespace Sys2Proof.Machine

/-! ### Ready drops leave the table (R100, R103) -/

theorem State.reportDrops_unloaded {s : State} (h : s.drop.loaded = false) : s.reportDrops = s := by
  simp [State.reportDrops, h]

/-- A report leaves the stamps of FFALL as they are (R93, R102). -/
theorem State.reportDrops_stamps (s : State) :
    s.reportDrops.drop.suspended = s.drop.suspended ∧ s.reportDrops.drop.ffallSince = s.drop.ffallSince := by
  unfold State.reportDrops
  split <;> exact ⟨rfl, rfl⟩

theorem State.reportDrops_loaded {s : State} (h : s.drop.loaded = true) : s.reportDrops =
    (s.withDrop { s.drop with pending := (passReady s.control.settings.mask s.tick s.drop.pending s.report).1 }).withReport
      (passReady s.control.settings.mask s.tick s.drop.pending s.report).2 := by
  simp [State.reportDrops, h]

/-- Settles O28, by the split of the table at the first drop that is not ready. -/
theorem readyDropsAreReportedInOrder : Obligations.ReadyDropsAreReportedInOrder := by
  refine ⟨fun s way => ⟨rfl, fun tag => s.dropDeparted_some tag way⟩, fun s => State.reportDrops_unloaded,
    fun s hloaded => ?_⟩
  obtain ⟨gone, rest, hpending, hready, hkept, hpassed⟩ :=
    passReady_cases s.control.settings.mask s.tick s.drop.pending s.report
  refine ⟨gone, rest, hpending, hready, hkept, ?_⟩
  rw [State.reportDrops_loaded hloaded, hpassed]
  rfl

/-! ### The close of a drop (R91, R92) -/

section Expiry

variable {s : State}

theorem State.closeDrop_eq {older : List Drop} {x y : Drop} {ceiling : Bool} (hp : s.drop.pending = older ++ [x])
    (hc : x.ClosesTo s.drop.openOnset s.drop.impactStart s.tick ceiling y) :
    s.closeDrop ceiling = (s.withDrop { s.drop with
      state := .calm, mergeTimer := .stopped, settleTimer := .stopped, ceilingTimer := .stopped
      openOnset := none, impactStart := none, pending := older ++ [y] }).reportDrops := by
  rw [State.closeDrop, DropMonitor.close_eq hp hc]

theorem State.suspendFreeFall_suspends (h : s.pins.ffall = true) (hn : s.drop.suspended = none) (drop : Tick)
    (ceilingMs : Nat) : s.suspendFreeFall drop ceilingMs =
      { s with
        drop := { s.drop with suspended := some s.tick }
        report := s.report.append s.control.settings.mask s.tick
          (.sensor (.suspended drop s.drop.ffallSince ceilingMs)) } :=
  if_pos ⟨h, hn⟩

theorem State.suspendFreeFall_unchanged (h : s.pins.ffall = false ∨ s.drop.suspended ≠ none) (drop : Tick)
    (ceilingMs : Nat) : s.suspendFreeFall drop ceilingMs = s := by
  refine if_neg ?_
  rintro ⟨hhigh, hn⟩
  rcases h with hlow | hs
  · exact absurd (hhigh.symm.trans hlow) nofun
  · exact hs hn

/-! ### The expiries -/

theorem exec_mergeTimerExpiry_due (h : s.drop.mergeTimer.due = true) :
    exec .mergeTimerExpiry s = .next (s.withDrop (s.drop.settle s.dropParams)) := by
  simp [exec, execMergeTimerExpiry, h]

theorem exec_mergeTimerExpiry_early (h : s.drop.mergeTimer.due = false) : exec .mergeTimerExpiry s = .next s := by
  simp [exec, execMergeTimerExpiry, h]

theorem exec_settleTimerExpiry_due (h : s.drop.settleTimer.due = true) :
    exec .settleTimerExpiry s = .next (s.closeDrop false).settled := by
  simp [exec, execSettleTimerExpiry, h]

theorem exec_settleTimerExpiry_early (h : s.drop.settleTimer.due = false) : exec .settleTimerExpiry s = .next s := by
  simp [exec, execSettleTimerExpiry, h]

theorem exec_ceilingTimerExpiry_due (h : s.drop.ceilingTimer.due = true) : exec .ceilingTimerExpiry s =
    .next ((s.closeDrop true).suspendFreeFall s.drop.counter s.dropParams.ceilingMs).settled := by
  simp [exec, execCeilingTimerExpiry, h, DropMonitor.current]

theorem exec_ceilingTimerExpiry_early (h : s.drop.ceilingTimer.due = false) : exec .ceilingTimerExpiry s = .next s := by
  simp [exec, execCeilingTimerExpiry, h]

end Expiry

/-- Settles O27: a timer that is due closes the drop, and the report leaves what the suspension reads. -/
theorem dropTimersExpire : Obligations.DropTimersExpire := by
  refine ⟨⟨fun s elapsed interval p ht hle hl => ?merge, fun s h => exec_mergeTimerExpiry_early (Timer.not_due h)⟩,
    fun s h => exec_settleTimerExpiry_early (Timer.not_due h), fun s h => exec_ceilingTimerExpiry_early (Timer.not_due h),
    fun s elapsed interval older x y hle hp => ?closing⟩
  case' closing =>
    intro closed
    refine ⟨fun ht hc => ?settle, fun p ht hl hc => ?ceiling⟩
  case merge =>
    rw [exec_mergeTimerExpiry_due (Timer.due_of_passed ht hle), State.dropParams_of_latched hl]
    rfl
  case settle =>
    rw [exec_settleTimerExpiry_due (Timer.due_of_passed ht hle), State.closeDrop_eq hp hc]
    rfl
  case ceiling =>
    have closes : s.closeDrop true = closed := State.closeDrop_eq hp hc
    have tick : closed.tick = s.tick := by simp [closed]
    have control : closed.control = s.control := by simp [closed]
    have pins : closed.pins = s.pins := by simp [closed]
    obtain ⟨suspended, since⟩ : closed.drop.suspended = s.drop.suspended ∧ closed.drop.ffallSince = s.drop.ffallSince :=
      State.reportDrops_stamps _
    rw [exec_ceilingTimerExpiry_due (Timer.due_of_passed ht hle), State.dropParams_of_latched hl, closes]
    refine ⟨fun hhigh hn => ?_, fun h => ?_⟩
    · rw [State.suspendFreeFall_suspends (pins ▸ hhigh) (suspended.trans hn), tick, control, since]
    · rw [State.suspendFreeFall_unchanged (pins.symm ▸ suspended.symm ▸ h)]

end Sys2Proof.Machine
end

section
/-! The derate factor (R115) and the level (R117). -/

namespace Sys2Proof.Machine

/-! ### The interpolation (R115) -/

/-- A share `x` of `d` of a span lies between nothing and the whole of it. -/
theorem tdiv_share_range (span : Int) {x d : Int} (hx : 0 ≤ x) (hxd : x ≤ d) (hd : 0 < d) :
    min 0 span ≤ (span * x).tdiv d ∧ (span * x).tdiv d ≤ max 0 span := by
  have upwards (k : Int) (hk : 0 ≤ k) : 0 ≤ (k * x).tdiv d ∧ (k * x).tdiv d ≤ k := by
    have nonneg : 0 ≤ k * x := Int.mul_nonneg hk hx
    refine ⟨Int.tdiv_nonneg nonneg hd.le, ?_⟩
    rw [Int.tdiv_eq_ediv_of_nonneg nonneg]
    exact Int.ediv_le_of_le_mul hd (Int.mul_le_mul_of_nonneg_left hxd hk)
  rcases Int.le_total 0 span with h | h
  · have := upwards span h
    omega
  · have := upwards (-span) (by omega)
    rw [Int.neg_mul, Int.neg_tdiv] at this
    omega

section Interpolate

variable {a b : DeratePoint} {t : Int} (ha : a.temperature ≤ t) (hb : t < b.temperature)
include ha hb

theorem interpolate_range : min a.factor b.factor ≤ interpolate a b t ∧ interpolate a b t ≤ max a.factor b.factor := by
  have := tdiv_share_range ((b.factor : Int) - a.factor) (x := t - a.temperature) (d := b.temperature - a.temperature)
    (by omega) (by omega) (by omega)
  unfold interpolate
  omega

theorem interpolate_eq : (interpolate a b t : Int) =
    a.factor + (((b.factor : Int) - a.factor) * (t - a.temperature)).tdiv (b.temperature - a.temperature) := by
  have := tdiv_share_range ((b.factor : Int) - a.factor) (x := t - a.temperature) (d := b.temperature - a.temperature)
    (by omega) (by omega) (by omega)
  unfold interpolate
  omega

end Interpolate

theorem interpolate_self (a b : DeratePoint) : interpolate a b a.temperature = a.factor := by
  simp [interpolate]

/-! ### The table (R115) -/

theorem derateFactor_low {table : DerateTable} {t : Int} (h : t ≤ table.p1.temperature) :
    derateFactor table t = table.p1.factor := if_pos h

section Table

variable {table : DerateTable} {t : Int} (lawful : table.Lawful)
include lawful

theorem derateFactor_high (h : table.p4.temperature ≤ t) : derateFactor table t = table.p4.factor := by
  obtain ⟨h12, h23, h34⟩ := lawful.ascending
  unfold derateFactor
  rw [if_neg (by omega), if_pos h]

/-- Between two points that follow one another the factor is theirs, interpolated. -/
theorem derateFactor_between {a b : DeratePoint}
    (h : (a, b) = (table.p1, table.p2) ∨ (a, b) = (table.p2, table.p3) ∨ (a, b) = (table.p3, table.p4))
    (ha : a.temperature ≤ t) (hb : t < b.temperature) : derateFactor table t = interpolate a b t := by
  obtain ⟨h12, h23, h34⟩ := lawful.ascending
  unfold derateFactor
  rcases h with h | h | h <;> cases h
  · rcases ha.eq_or_lt with rfl | ha
    · rw [if_pos le_rfl, interpolate_self]
    · rw [if_neg (by omega), if_neg (by omega), if_pos hb]
  · rw [if_neg (by omega), if_neg (by omega), if_neg (by omega), if_pos hb]
  · rw [if_neg (by omega), if_neg (by omega), if_neg (by omega), if_neg (by omega)]

/-- At any temperature the factor is in its range. -/
theorem derateFactor_range (t : Int) : 1 ≤ derateFactor table t ∧ derateFactor table t ≤ 256 := by
  have factors := lawful.factors
  simp only [List.mem_cons, List.not_mem_nil, or_false, forall_eq_or_imp, forall_eq] at factors
  obtain ⟨f1, f2, f3, f4⟩ := factors
  have between {a b : DeratePoint}
      (h : (a, b) = (table.p1, table.p2) ∨ (a, b) = (table.p2, table.p3) ∨ (a, b) = (table.p3, table.p4))
      (ha : a.temperature ≤ t) (hb : t < b.temperature) (fa : 1 ≤ a.factor ∧ a.factor ≤ 256)
      (fb : 1 ≤ b.factor ∧ b.factor ≤ 256) : 1 ≤ derateFactor table t ∧ derateFactor table t ≤ 256 := by
    have := interpolate_range ha hb
    rw [derateFactor_between lawful h ha hb]
    omega
  by_cases h1 : t ≤ table.p1.temperature
  · rwa [derateFactor_low h1]
  by_cases h4 : table.p4.temperature ≤ t
  · rwa [derateFactor_high lawful h4]
  by_cases h2 : t < table.p2.temperature
  · exact between (.inl rfl) (by omega) h2 f1 f2
  by_cases h3 : t < table.p3.temperature
  · exact between (.inr (.inl rfl)) (by omega) h3 f2 f3
  · exact between (.inr (.inr rfl)) (by omega) (by omega) f3 f4

end Table

/-- Settles O32: between two points that follow one another the factor is theirs interpolated, and a share of the span
between the two factors (`tdiv_share_range`) leaves it between them. -/
theorem derateFactorInterpolates : Obligations.DerateFactorInterpolates := by
  refine fun table t lawful => ⟨derateFactor_low, derateFactor_high lawful, fun a b h ha hb => ?_,
    derateFactor_range lawful t⟩
  rw [derateFactor_between lawful h ha hb]
  exact ⟨interpolate_eq ha hb, interpolate_range ha hb⟩

/-! ### The level (R117) -/

/-- The level by the state of charge from which it is NORMAL and the one from which it is LOW. -/
def levelFrom (normal low soc : Nat) : Level :=
  if normal ≤ soc then .normal else if low ≤ soc then .low else .critical

section LevelFrom

variable {normal low soc : Nat}

theorem levelFrom_eq_normal : levelFrom normal low soc = .normal ↔ normal ≤ soc := by
  unfold levelFrom
  split
  · simpa
  · split <;> simp <;> omega

theorem levelFrom_eq_low : levelFrom normal low soc = .low ↔ low ≤ soc ∧ soc < normal := by
  unfold levelFrom
  split
  · simp; omega
  · split <;> simp <;> omega

theorem levelFrom_eq_critical (h : low ≤ normal) : levelFrom normal low soc = .critical ↔ soc < low := by
  unfold levelFrom
  split
  · simp; omega
  · split <;> simp <;> omega

theorem levelFrom_ne_unknown : levelFrom normal low soc ≠ .unknown := by
  unfold levelFrom
  split
  · nofun
  · split <;> nofun

end LevelFrom

/-- The level of the last period sets the thresholds: two points more to rise to NORMAL from LOW or CRITICAL, and to LOW
from CRITICAL. -/
theorem nextLevel_eq {low critical : Nat} (h : critical < low) (previous : Level) (soc : Nat) :
    nextLevel previous soc low critical =
      match previous with
      | .unknown => levelFrom low critical soc
      | .normal => levelFrom low critical soc
      | .low => levelFrom (low + 2) critical soc
      | .critical => levelFrom (low + 2) (critical + 2) soc := by
  cases previous with
  | unknown => rfl
  | normal => grind [nextLevel, levelFrom]
  | low => grind [nextLevel, levelFrom]
  | critical => rfl

section Derive

variable (g : Gauge) (table : DerateTable) (low critical : Nat)

@[simp] theorem Gauge.derive_factor : (g.derive table low critical).factor = derateFactor table g.temperature := by
  unfold Gauge.derive
  cases g.state <;> rfl

@[simp] theorem Gauge.derive_usable :
    (g.derive table low critical).usable = usableCapacity g.learned (derateFactor table g.temperature) := by
  unfold Gauge.derive
  cases g.state <;> rfl

variable {g}

theorem Gauge.derive_unknown (h : g.state = .unknown) :
    (g.derive table low critical).remaining = none ∧ (g.derive table low critical).soc = none ∧
    (g.derive table low critical).minutes = none ∧ (g.derive table low critical).level = .unknown := by
  simp [Gauge.derive, h]

theorem Gauge.derive_valid (h : g.state = .valid) : ∃ ru soc,
    ru = usableCharge g.remaining g.learned (g.derive table low critical).usable ∧
    soc = stateOfCharge ru (g.derive table low critical).usable ∧
    (g.derive table low critical).remaining = some ru ∧ (g.derive table low critical).soc = some soc ∧
    (g.derive table low critical).level = nextLevel g.derived.level soc low critical ∧
    (g.derive table low critical).minutes = minutesLeft ru g.buckets := by
  simp [Gauge.derive, h]

end Derive

/-- Settles O31: the last level sets the thresholds (`nextLevel_eq`), and the level is read off them (`levelFrom`). -/
theorem levelFollowsTheThresholds : Obligations.LevelFollowsTheThresholds := by
  refine ⟨fun g table low critical => ⟨fun h => ?unknown, fun h => ?valid⟩,
    fun previous soc low critical h => ?thresholds⟩
  case unknown =>
    obtain ⟨-, -, -, level⟩ := Gauge.derive_unknown table low critical h
    exact level
  case valid =>
    obtain ⟨-, soc, -, -, -, shown, level, -⟩ := Gauge.derive_valid table low critical h
    exact ⟨soc, shown, level⟩
  case thresholds =>
    dsimp only
    rw [nextLevel_eq h]
    cases previous with
    | unknown =>
      exact ⟨levelFrom_ne_unknown, fun _ => ⟨levelFrom_eq_normal, levelFrom_eq_critical h.le⟩, nofun, nofun, nofun⟩
    | normal =>
      exact ⟨levelFrom_ne_unknown, nofun, fun _ => ⟨levelFrom_eq_normal, levelFrom_eq_critical h.le⟩, nofun, nofun⟩
    | low =>
      exact ⟨levelFrom_ne_unknown, nofun, nofun, fun _ => ⟨levelFrom_eq_normal, levelFrom_eq_critical (by omega)⟩, nofun⟩
    | critical => exact ⟨levelFrom_ne_unknown, nofun, nofun, nofun, fun _ => ⟨levelFrom_eq_normal, levelFrom_eq_low⟩⟩

end Sys2Proof.Machine
end

section
/-! The battery lines and the gates (06): pulses, the minute boundary and the edges of CHGDONE, PKEMPTY and PKPRES, one
equation per case (R106 to R122). -/

namespace Sys2Proof.Machine

/-! ### Pulses (R108, R109, R111) -/

theorem satNet_of_le_left {n : Int} (h : -2147483648 ≤ n) : satNet n = min 2147483647 n := by
  unfold satNet clampInt
  omega

theorem satNet_of_le_right {n : Int} (h : n ≤ 2147483647) : satNet n = max (-2147483648) n := by
  unfold satNet clampInt
  omega

section Pulses

variable {s : State}

theorem exec_qpulseRise_tallies (h : s.gauge.tallying = true) (qdir : Bool) :
    exec (.qpulseRise qdir) s = .next (s.withGauge (s.gauge.tally qdir)) := by
  simp [exec, execQpulseRise, h]

theorem exec_qpulseRise_discharges (h : s.gauge.tallying = false) :
    exec (.qpulseRise true) s = .next (s.withGauge s.gauge.discharge) := by
  simp [exec, execQpulseRise, h]

theorem exec_qpulseRise_charges (h : s.gauge.tallying = false) :
    exec (.qpulseRise false) s = .next (s.withGauge s.gauge.charge) := by
  simp [exec, execQpulseRise, h]

end Pulses

/-! ### The minute boundary (R118) -/

theorem Gauge.boundary_eq (g : Gauge) : g.boundary = { g with
    buckets := (if g.buckets.length < 8 then g.buckets else g.buckets.drop 1) ++ [g.net], net := 0 } := by
  unfold Gauge.boundary
  simp only [← Nat.not_lt, ite_not]

theorem exec_minuteBoundary_due {s : State} (ht : 10000 ≤ s.gauge.gateTicks) (hg : s.gauge.gates = 59)
    (hb : s.gauge.boundaryTaken = false) :
    exec .minuteBoundary s = .next (s.withGauge { s.gauge.boundary with boundaryTaken := true }) := by
  simp [exec, execMinuteBoundary, Gauge.gateDue, ht, hg, hb]

/-- Settles O29: one equation per command; a lawful net saturates at the end it moves towards alone. -/
theorem gaugeInputsAreCounted : Obligations.GaugeInputsAreCounted := by
  refine ⟨fun s => ⟨fun h => ⟨exec_qpulseRise_tallies h true, exec_qpulseRise_tallies h false⟩,
    fun h law => ⟨?discharge, ?charge⟩⟩, fun s => rfl, fun s ht hg hb => ?boundary⟩
  case discharge =>
    have net := satNet_of_le_left (n := s.gauge.net + s.gauge.weight) (by have := law.gauge.net; omega)
    rw [exec_qpulseRise_discharges h, Gauge.discharge, net]
    rfl
  case charge =>
    have net := satNet_of_le_right (n := s.gauge.net - s.gauge.weight) (by have := law.gauge.net; omega)
    rw [exec_qpulseRise_charges h, Gauge.charge, net]
    rfl
  case boundary =>
    rw [exec_minuteBoundary_due ht hg hb, Gauge.boundary_eq]
    rfl

/-! ### The edges (R106, R111, R120 to R122) -/

section Edges

variable {s : State}

theorem State.takeBatteryEdge_holds (h : s.gauge.holding = true) (edge : HeldEdge) :
    s.takeBatteryEdge edge = s.withGauge { s.gauge with held := s.gauge.held ++ [edge] } :=
  if_pos h

theorem State.batteryEdge_unseated (h : s.gauge.seated = false) :
    s.batteryEdge .chgdone = s ∧ s.batteryEdge .pkempty = s := by
  simp [State.batteryEdge, h]

theorem State.batteryEdge_full (h : s.gauge.seated = true) : s.batteryEdge .chgdone = s.withGauge s.gauge.full :=
  if_pos h

theorem State.batteryEdge_empty (h : s.gauge.seated = true) (ha : s.gauge.anchor = false) :
    s.batteryEdge .pkempty = s.withGauge s.gauge.empty := by
  simp [State.batteryEdge, h, ha]

theorem State.batteryEdge_learns (h : s.gauge.seated = true) (ha : s.gauge.anchor = true) :
    s.batteryEdge .pkempty =
      ((s.withGauge s.gauge.learn).record (.battery (s.gauge.learn.toRecord .learned))).withGauge
        s.gauge.learn.empty := by
  simp [State.batteryEdge, h, ha]

theorem exec_pkpresFall_low (h : s.pins.pkpres = false) : exec .pkpresFall s = .next s := by
  simp [exec, execPkpresFall, h]

theorem exec_pkpresFall_high (h : s.pins.pkpres = true) :
    exec .pkpresFall s = .next ((s.withPins { s.pins with pkpres := false }).takeBatteryEdge .pkpresFall) := by
  simp [exec, execPkpresFall, h]

theorem exec_pkpresRise_high (h : s.pins.pkpres = true) : exec .pkpresRise s = .next s := by
  simp [exec, execPkpresRise, h]

theorem exec_pkpresRise_low (h : s.pins.pkpres = false) :
    exec .pkpresRise s = .next ((s.withPins { s.pins with pkpres := true }).takeBatteryEdge .pkpresRise) := by
  simp [exec, execPkpresRise, h]

end Edges

/-- Settles O33: an edge is held or acts as the hold stands, and `State.batteryEdge` has one equation per case. -/
theorem batteryEdgesAct : Obligations.BatteryEdgesAct := by
  refine ⟨fun s hh => ?held, fun s hh => ⟨fun hs => ?unseated, fun hs => ⟨?full, fun ha => ?empty, fun ha => ?learns⟩⟩,
    fun s hh => ⟨fun hp => ⟨?removed, exec_pkpresRise_high hp⟩, fun hp => ⟨?seated, exec_pkpresFall_low hp⟩⟩⟩
  case' held => have held := State.takeBatteryEdge_holds hh
  case' unseated | full | empty | learns => have acts := State.takeBatteryEdge_acts hh
  case held =>
    refine ⟨congrArg _ (held .chgdone), congrArg _ (held .pkempty), fun hp => ?_, fun hp => ?_⟩
    · rw [exec_pkpresFall_high hp, State.takeBatteryEdge_holds (by exact hh)]
      rfl
    · rw [exec_pkpresRise_low hp, State.takeBatteryEdge_holds (by exact hh)]
      rfl
  case unseated =>
    obtain ⟨full, empty⟩ := State.batteryEdge_unseated hs
    exact ⟨congrArg _ ((acts _).trans full), congrArg _ ((acts _).trans empty)⟩
  case full => exact congrArg _ ((acts _).trans (State.batteryEdge_full hs))
  case empty => exact congrArg _ ((acts _).trans (State.batteryEdge_empty hs ha))
  case learns => exact congrArg _ ((acts _).trans (State.batteryEdge_learns hs ha))
  case removed =>
    rw [exec_pkpresFall_high hp, State.takeBatteryEdge_acts (by exact hh)]
    rfl
  case seated =>
    rw [exec_pkpresRise_low hp, State.takeBatteryEdge_acts (by exact hh)]
    rfl

end Sys2Proof.Machine
end

section
/-! GATE_END (06): the boundary, the temperature, the gauge period and its record (R112 to R119, R123, R125, R126). -/

namespace Sys2Proof.Machine

/-! ### What the period finds: the boundary and the temperature (R112, R113, R118) -/

/-- The gauge as the period of a gate's end finds it. -/
def Gauge.beforePeriod (g : Gauge) (v : Settings) : Gauge := g.boundaryAtGate.updateTemperature v.zeroCount v.perDegree

section BeforePeriod

variable (g : Gauge)

theorem Gauge.boundaryAtGate_frame :
    g.boundaryAtGate = { g with buckets := g.boundaryAtGate.buckets, net := g.boundaryAtGate.net } := by
  unfold Gauge.boundaryAtGate
  split <;> rfl

theorem Gauge.updateTemperature_frame (zeroCount perDegree : Nat) : g.updateTemperature zeroCount perDegree = { g with
    temperature := (g.updateTemperature zeroCount perDegree).temperature
    outOfRange := (g.updateTemperature zeroCount perDegree).outOfRange
    stale := (g.updateTemperature zeroCount perDegree).stale
    firstReading := (g.updateTemperature zeroCount perDegree).firstReading
    gateCount := 0 } := by
  unfold Gauge.updateTemperature
  split
  next h => rw [← h]
  · rfl

variable (v : Settings)

/-- The boundary changes the net and the buckets, the reading the temperature with its marks and the gate's count. -/
theorem Gauge.beforePeriod_frame : g.beforePeriod v = { g with
    buckets := g.boundaryAtGate.buckets, net := g.boundaryAtGate.net, gateCount := 0
    temperature := (g.beforePeriod v).temperature, outOfRange := (g.beforePeriod v).outOfRange
    stale := (g.beforePeriod v).stale, firstReading := (g.beforePeriod v).firstReading } := by
  unfold Gauge.beforePeriod
  rw [Gauge.updateTemperature_frame]
  generalize Gauge.updateTemperature _ _ _ = x
  rw [Gauge.boundaryAtGate_frame]

theorem Gauge.boundaryAtGate_due (h : g.gates = 59 ∧ g.boundaryTaken = false) : g.boundaryAtGate = g.boundary :=
  if_pos h

theorem Gauge.boundaryAtGate_taken (h : ¬ (g.gates = 59 ∧ g.boundaryTaken = false)) : g.boundaryAtGate = g := if_neg h

/-- A gate that counted nothing leaves the temperature as it was, and stale. -/
theorem Gauge.beforePeriod_stale (h : g.gateCount = 0) :
    (g.beforePeriod v).temperature = g.temperature ∧ (g.beforePeriod v).stale = true ∧
    (g.beforePeriod v).outOfRange = g.outOfRange ∧ (g.beforePeriod v).firstReading = g.firstReading := by
  unfold Gauge.beforePeriod
  rw [Gauge.boundaryAtGate_frame]
  simp [Gauge.updateTemperature, h]

theorem clampInt_ne {low high : Int} (h : low ≤ high) (n : Int) : clampInt low high n ≠ n ↔ n < low ∨ high < n := by
  unfold clampInt
  omega

/-- A gate's count gives the temperature, clamped to its range. -/
theorem Gauge.beforePeriod_read (h : g.gateCount ≠ 0) {exact : Int}
    (he : exact = ((g.gateCount : Int) - v.zeroCount).fdiv v.perDegree) :
    (g.beforePeriod v).temperature = max (-40) (min 85 exact) ∧ (g.beforePeriod v).stale = false ∧
    (g.beforePeriod v).firstReading = true ∧ ((g.beforePeriod v).outOfRange = true ↔ exact < -40 ∨ 85 < exact) := by
  unfold Gauge.beforePeriod
  rw [Gauge.boundaryAtGate_frame]
  simp only [Gauge.updateTemperature, h, if_false, ← he]
  exact ⟨rfl, trivial, trivial, by rw [decide_eq_true_iff]; exact clampInt_ne (by decide) exact⟩

end BeforePeriod

/-! ### The period's record (R125, R126) -/

theorem periodReason_some {changePending : Bool} {before after : Level} {periods interval : Nat}
    (h : changePending = true ∨ after ≠ before ∨ interval ≤ periods) :
    periodReason changePending before after periods interval =
      some (if changePending then .state else if after ≠ before then .level else .periodic) := by
  unfold periodReason
  split
  · rfl
  · simp only [ne_comm (a := before)]
    split
    · rfl
    · rw [if_pos (by tauto)]

theorem periodReason_none {level : Level} {periods interval : Nat} (h : periods < interval) :
    periodReason false level level periods interval = none := by
  simp [periodReason, h]

/-- The gauge as the period of a gate's end leaves it, with the next gate begun. -/
def Gauge.afterGate (g : Gauge) (v : Settings) : Gauge := ((g.beforePeriod v).period v).1.nextGate

/-- The derived values that the period of a gate's end computes. -/
def Gauge.derivedAtGate (g : Gauge) (v : Settings) : Derived := (g.beforePeriod v).derive v.derate v.low v.critical

/-- The reason of the record of that period, if any. -/
def Gauge.gateReason (g : Gauge) (v : Settings) : Option BatteryReason :=
  periodReason g.changePending g.derived.level (g.derivedAtGate v).level g.periods v.interval

section AfterGate

variable (g : Gauge) (v : Settings)

theorem Gauge.period_eq : g.period v =
    let derived := g.derive v.derate v.low v.critical
    let reason := periodReason g.changePending g.derived.level derived.level g.periods v.interval
    let left : Gauge := { g with
      derived := derived, periods := if reason = none then satAdd 3600 g.periods 1 else 0, changePending := false
      weight := v.weight }
    (left, reason.map left.toRecord) := by
  unfold Gauge.period
  dsimp only
  split
  next h =>
    have quiet : g.changePending = false := by
      by_contra changed
      simp [periodReason, eq_true_of_ne_false changed] at h
    simp [h, ← quiet]
  next why h => simp [h, Gauge.toRecord]

/-- What the period of a gate's end leaves, and its record, which shows the gauge as it leaves it. -/
theorem Gauge.period_beforePeriod : (g.beforePeriod v).period v =
    let left : Gauge := { g.beforePeriod v with
      derived := g.derivedAtGate v, periods := if g.gateReason v = none then satAdd 3600 g.periods 1 else 0
      changePending := false, weight := v.weight }
    (left, (g.gateReason v).map left.toRecord) := by
  have kept : (g.beforePeriod v).changePending = g.changePending ∧ (g.beforePeriod v).derived = g.derived ∧
      (g.beforePeriod v).periods = g.periods := by
    rw [Gauge.beforePeriod_frame]
    exact ⟨rfl, rfl, rfl⟩
  obtain ⟨changePending, derived, periods⟩ := kept
  rw [Gauge.period_eq, changePending, derived, periods]
  rfl

theorem Gauge.afterGate_eq : g.afterGate v = { g.beforePeriod v with
    derived := g.derivedAtGate v, periods := if g.gateReason v = none then satAdd 3600 g.periods 1 else 0
    changePending := false, weight := v.weight, gateTicks := g.gateTicks - 10000, gates := (g.gates + 1) % 60
    boundaryTaken := false } := by
  unfold Gauge.afterGate
  rw [Gauge.period_beforePeriod, Gauge.beforePeriod_frame]
  rfl

/-- A record does not show where the gauge stands in its gate. -/
theorem Gauge.toRecord_gate (ticks gates : Nat) (taken : Bool) :
    Gauge.toRecord { g with gateTicks := ticks, gates := gates, boundaryTaken := taken } = g.toRecord := rfl

theorem Gauge.nextGate_toRecord : g.nextGate.toRecord = g.toRecord := g.toRecord_gate _ _ _

theorem Gauge.period_record : ((g.beforePeriod v).period v).2 = (g.gateReason v).map (g.afterGate v).toRecord := by
  unfold Gauge.afterGate
  rw [Gauge.nextGate_toRecord, Gauge.period_beforePeriod]

theorem Gauge.derivedAtGate_unknown (h : g.state = .unknown) :
    (g.derivedAtGate v).remaining = none ∧ (g.derivedAtGate v).soc = none ∧ (g.derivedAtGate v).minutes = none ∧
    (g.derivedAtGate v).level = .unknown :=
  Gauge.derive_unknown _ _ _ (by rw [Gauge.beforePeriod_frame]; exact h)

theorem Gauge.derivedAtGate_valid (h : g.state = .valid) : ∃ ru soc,
    ru = usableCharge g.remaining g.learned (g.derivedAtGate v).usable ∧
    soc = stateOfCharge ru (g.derivedAtGate v).usable ∧
    (g.derivedAtGate v).remaining = some ru ∧ (g.derivedAtGate v).soc = some soc ∧
    (g.derivedAtGate v).level = nextLevel g.derived.level soc v.low v.critical ∧
    (g.derivedAtGate v).minutes = minutesLeft ru g.boundaryAtGate.buckets := by
  have period := Gauge.derive_valid (g := g.beforePeriod v) v.derate v.low v.critical
    (by rw [Gauge.beforePeriod_frame]; exact h)
  rw [Gauge.beforePeriod_frame] at period
  unfold Gauge.derivedAtGate
  rw [Gauge.beforePeriod_frame]
  exact period

end AfterGate

section EndGate

variable {s : State}

theorem exec_gateEnd_early (h : s.gauge.gateTicks < 10000) : exec .gateEnd s = .next s := by
  simp [exec, execGateEnd, Gauge.gateDue, h]

theorem exec_gateEnd_due (h : 10000 ≤ s.gauge.gateTicks) : exec .gateEnd s = .next s.endGate := by
  simp [exec, execGateEnd, Gauge.gateDue, h]

theorem State.endGate_silent (h : s.gauge.gateReason s.control.settings = none) :
    s.endGate = s.withGauge (s.gauge.afterGate s.control.settings) := by
  have quiet := s.gauge.period_record s.control.settings
  rw [h] at quiet
  unfold State.endGate
  dsimp only
  split
  · rfl
  next record shown => exact absurd (shown.symm.trans quiet) nofun

theorem State.endGate_records {why : BatteryReason} (h : s.gauge.gateReason s.control.settings = some why) :
    s.endGate = (s.withGauge (s.gauge.afterGate s.control.settings)).record
      (.battery ((s.gauge.afterGate s.control.settings).toRecord why)) := by
  have made := s.gauge.period_record s.control.settings
  rw [h] at made
  unfold State.endGate
  dsimp only
  split
  next none => exact absurd (none.symm.trans made) nofun
  next record shown =>
    cases shown.symm.trans made
    rfl

theorem State.endGate_eq : s.endGate =
    { s with gauge := s.gauge.afterGate s.control.settings, report := s.endGate.report } := by
  cases h : s.gauge.gateReason s.control.settings with
  | none => rw [State.endGate_silent h]; rfl
  | some why => rw [State.endGate_records h]; rfl

end EndGate

/-- The period makes a record where a change is pending, the level moved, or enough periods have passed (R125). -/
theorem Gauge.gateReason_some {g : Gauge} {v : Settings}
    (h : g.changePending = true ∨ (g.derivedAtGate v).level ≠ g.derived.level ∨ v.interval ≤ g.periods) :
    g.gateReason v = some (if g.changePending then .state
      else if (g.derivedAtGate v).level ≠ g.derived.level then .level else .periodic) :=
  periodReason_some h

theorem Gauge.gateReason_none {g : Gauge} {v : Settings} (hc : g.changePending = false)
    (hl : (g.derivedAtGate v).level = g.derived.level) (hp : g.periods < v.interval) : g.gateReason v = none := by
  unfold Gauge.gateReason
  rw [hc, hl, periodReason_none hp]

/-- Settles O30. `Gauge.afterGate_eq` says what the gate's end leaves of the gauge and `Gauge.beforePeriod_frame` what the
boundary and the reading change before the period, so what the gate's end keeps is read off; each clause left over is a
lemma of its own on the temperature, the boundary, the derived values or the reason of the record. -/
theorem gateEndComputesThePeriod : Obligations.GateEndComputesThePeriod := by
  refine ⟨fun s => exec_gateEnd_early, fun s ht => ⟨s.gauge.afterGate s.control.settings, s.endGate.report, ?_⟩⟩
  refine ⟨(exec_gateEnd_due ht).trans (congrArg _ State.endGate_eq), ?_⟩
  rw [Gauge.afterGate_eq, Gauge.beforePeriod_frame]
  refine ⟨s.gauge.beforePeriod_stale _, fun h => s.gauge.beforePeriod_read _ h rfl, rfl, rfl, rfl, rfl, fun h => ?taken,
    fun h => ?due, rfl, rfl, rfl, rfl, rfl, rfl, rfl, rfl, rfl, rfl, rfl, rfl, rfl, ?factor, ?usable,
    s.gauge.derivedAtGate_unknown _, fun h => ?valid, fun h => ?recorded, fun hc hl hp => ?silent⟩
  case taken =>
    rw [Gauge.boundaryAtGate_taken _ h]
    exact ⟨rfl, rfl⟩
  case due =>
    rw [Gauge.boundaryAtGate_due _ h, Gauge.boundary_eq]
    exact ⟨rfl, rfl⟩
  case factor => exact Gauge.derive_factor _ _ _ _
  case usable =>
    dsimp only
    unfold Gauge.derivedAtGate
    rw [Gauge.derive_usable, Gauge.derive_factor, Gauge.beforePeriod_frame]
    rfl
  case valid =>
    obtain ⟨ru, soc, hru, hsoc, remaining, shown, level, minutes⟩ := s.gauge.derivedAtGate_valid s.control.settings h
    refine ⟨ru, soc, ?_, hsoc, remaining, shown, level, fun hb => ?_, fun hl hs => ?_⟩
    · rw [hru, usableCharge]
      dsimp only
      omega
    · exact minutes.trans (minutesLeft_none hb)
    · obtain ⟨average, ha, hm⟩ := minutesLeft_some (ru := ru) hl hs
      exact ⟨average, ha, minutes.trans hm⟩
  case recorded =>
    have reason := Gauge.gateReason_some h
    have made := congrArg State.report (State.endGate_records reason)
    rw [Gauge.afterGate_eq, Gauge.beforePeriod_frame] at made
    exact ⟨if_neg (by simp [reason]), rfl, made⟩
  case silent =>
    have none := Gauge.gateReason_none hc hl hp
    refine ⟨if_pos none, rfl, ?_⟩
    rw [State.endGate_silent none]
    rfl

end Sys2Proof.Machine
end

section
/-! The Charge Gauge's bounds (R107, R110) and the settings' (R173): what each operation of the gauge and each apply
keeps. -/

namespace Sys2Proof.Machine

/-! ### Settings in force (R173) -/

/-- A profile as R173 leaves it: its settings and its start-up fields lie in their ranges. -/
structure ProfileImage.Lawful (p : ProfileImage) : Prop where
  live : p.live.Lawful
  installed : 1 ≤ p.installed ∧ p.installed ≤ 4
  rres : 2 ≤ p.rres ∧ p.rres ≤ 64

theorem clampPoint_range (p : DeratePoint) :
    (-40 ≤ (clampPoint p).temperature ∧ (clampPoint p).temperature ≤ 85) ∧
    1 ≤ (clampPoint p).factor ∧ (clampPoint p).factor ≤ 256 :=
  ⟨clampInt_range _ (by decide), clampNat_range _ (by decide)⟩

theorem clampDerate_lawful {t : DerateTable} (h : (clampDerate t).ascending = true) : (clampDerate t).Lawful where
  ascending := by simpa [DerateTable.ascending, and_assoc] using h
  lowest := (clampPoint_range t.p1).1.1
  highest := (clampPoint_range t.p4).1.2
  factors := by
    have factor (p : DeratePoint) := (clampPoint_range p).2
    simp [clampDerate, factor]

theorem clampSettings_lawful {v : Settings} (h : (clampSettings v).derate.ascending = true) :
    (clampSettings v).Lawful where
  settle := clampNat_range _ (by decide)
  ceiling := clampNat_range _ (by decide)
  merge := (clampNat_range _ (by decide)).2
  latency := (clampNat_range _ (by decide)).2
  weight := clampNat_range _ (by decide)
  nominal := clampNat_range _ (by decide)
  thresholds := by
    obtain ⟨least, largest⟩ := clampNat_range (low := 1) (high := 50) v.low (by decide)
    have critical := (clampNat_range (low := 0) (high := clampNat 1 50 v.low - 1) v.critical (Nat.zero_le _)).2
    exact ⟨least, largest, by dsimp only [clampSettings]; omega⟩
  zeroCount := (clampNat_range _ (by decide)).2
  perDegree := clampNat_range _ (by decide)
  derate := clampDerate_lawful h
  interval := clampNat_range _ (by decide)
  dieTimeout := clampNat_range _ (by decide)
  patience := clampNat_range _ (by decide)

/-- A profile that passes the test of R173 is lawful. -/
theorem testProfile_lawful {page : Page} {p : ProfileImage} {clamped : Bool}
    (h : testProfile page = .accepted p clamped) : p.Lawful := by
  unfold testProfile at h
  split at h
  · dsimp only at h
    split at h
    next ascending =>
      cases h
      exact ⟨clampSettings_lawful ascending, clampNat_range _ (by decide), clampNat_range _ (by decide)⟩
    · cases h
  · cases h

theorem defaultDerate_lawful : defaultDerate.Lawful := ⟨by decide, by decide, by decide, by decide⟩

theorem defaultProfile_lawful : defaultProfile.Lawful where
  live := ⟨by decide, by decide, by decide, by decide, by decide, by decide, by decide, by decide, by decide,
    defaultDerate_lawful, by decide, by decide, by decide⟩
  installed := by decide
  rres := by decide

/-! ### The gauge's own operations (R112 to R123, R127) -/

namespace Gauge.Lawful

variable {g : Gauge} (h : g.Lawful)
include h

theorem count : Gauge.Lawful { g with gateCount := satAdd 1048575 g.gateCount 1 } :=
  { h with gateCount := satAdd_le _ _ _ }

/-- An empty report with a void anchor, which teaches nothing (R121). -/
theorem emptied : g.empty.Lawful :=
  Gauge.Lawful.empty
    { h with remaining := Nat.zero_le _, unknown := fun hu => ⟨rfl, (h.unknown hu).2⟩ }

theorem boundaryAtGate : g.boundaryAtGate.Lawful := by
  unfold Gauge.boundaryAtGate
  split
  · exact h.boundary
  · exact h

theorem takeBoundary : Gauge.Lawful { g.boundary with boundaryTaken := true } := { h.boundary with }

theorem beforePeriod (v : Settings) : (g.beforePeriod v).Lawful := h.boundaryAtGate.updateTemperature _ _

/-- The learned capacity is large enough for a usable one of 1 or more (R116). -/
theorem learned_large {nominal : Nat} (hn : g.nominalCu = nominal * 16000) (hr : 500 ≤ nominal) : 256 ≤ g.learned := by
  have := h.learned.1
  omega

/-- The period computes the derived values with a factor of the table and a capacity that is large enough. -/
theorem period {v : Settings} (hv : v.Lawful) (hl : 256 ≤ g.learned) : (g.period v).1.Lawful := by
  obtain ⟨factor, usable, soc⟩ :=
    Gauge.derive_range (g := g) v.low v.critical (derateFactor_range hv.derate _) h.remaining hl
  rw [Gauge.period_eq]
  exact { h with
    soc := soc
    factor := factor ▸ derateFactor_range hv.derate _
    usable := usable
    periods := by
      dsimp only
      split
      · exact satAdd_le _ _ _
      · exact Nat.zero_le _ }

theorem followTable {t : DerateTable} (ht : t.Lawful) : (g.followTable t).Lawful := by
  obtain ⟨h12, h23, h34⟩ := ht.ascending
  have lowest := ht.lowest
  have highest := ht.highest
  unfold Gauge.followTable
  split
  · exact h
  · exact { h with temperature := by dsimp only; omega }

theorem withWeight (n : Nat) : Gauge.Lawful { g with weight := n } := { h with }

theorem hold (holding : Bool) (held : List HeldEdge) : Gauge.Lawful { g with holding := holding, held := held } :=
  { h with }

theorem tickGate (n : Nat) : Gauge.Lawful { g with gateTicks := n } := { h with }

/-- The nominal and the capacity it bounds change, and the charge is clamped to it. -/
theorem withCapacity {n learned : Nat} (hl : n / 2 ≤ learned ∧ learned ≤ n * 5 / 4) :
    Gauge.Lawful { g with nominalCu := n, learned := learned, remaining := min learned g.remaining } :=
  { h with
    remaining := Nat.min_le_left _ _
    learned := hl
    unknown := fun hu => by
      obtain ⟨hr, ha⟩ := h.unknown hu
      exact ⟨by simp [hr], ha⟩ }

theorem changeNominal (nominal : Nat) : (g.changeNominal nominal).Lawful := by
  unfold Gauge.changeNominal
  split
  · exact h
  · exact h.withCapacity (clampLearned_range _ _)

theorem startUpApply {v : Settings} (hv : v.Lawful) : (g.startUpApply v).Lawful :=
  ((h.withCapacity (n := v.nominal * 16000) (by omega)).withWeight _).convertTallies.followTable hv.derate

theorem recoveryApply {v : Settings} (hv : v.Lawful) : (g.recoveryApply v).Lawful :=
  ((h.changeNominal _).withWeight _).convertTallies.followTable hv.derate

theorem laterApply {v : Settings} (hv : v.Lawful) : (g.laterApply v).Lawful := (h.changeNominal _).followTable hv.derate

/-- A note's charge is clamped to the capacity restored; its D has four bytes (R188). -/
theorem restore {n : GaugeNote} (hn : n.drawn ≤ 4294967295) : (g.restore n).Lawful := by
  have learned := clampLearned_range g.nominalCu n.learned
  unfold Gauge.restore
  dsimp only
  split
  · exact { h with remaining := Nat.zero_le _, learned := learned, unknown := fun _ => ⟨rfl, rfl⟩ }
  split
  · exact { h with remaining := Nat.min_le_left _ _, learned := learned, unknown := nofun, drawn := hn }
  · exact { h with remaining := Nat.zero_le _, learned := learned, unknown := fun _ => ⟨rfl, rfl⟩, drawn := hn }

end Gauge.Lawful

theorem noteGauge_drawn (image : Page) : (noteGauge image).drawn ≤ 4294967295 :=
  Nat.le_of_lt_succ (readField_lt image 24 4)

/-! ### The nominal in force (R110, R123) -/

section Nominal

variable (g : Gauge)

@[simp] theorem Gauge.followTable_nominalCu (t : DerateTable) : (g.followTable t).nominalCu = g.nominalCu := by
  unfold Gauge.followTable
  split <;> rfl

@[simp] theorem Gauge.convertTallies_nominalCu : g.convertTallies.nominalCu = g.nominalCu := by
  unfold Gauge.convertTallies
  split <;> rfl

@[simp] theorem Gauge.changeNominal_nominalCu (nominal : Nat) :
    (g.changeNominal nominal).nominalCu = nominal * 16000 := by
  unfold Gauge.changeNominal
  split
  next h => exact h.symm
  · rfl

@[simp] theorem Gauge.startUpApply_nominalCu (v : Settings) : (g.startUpApply v).nominalCu = v.nominal * 16000 := by
  simp [Gauge.startUpApply]

@[simp] theorem Gauge.recoveryApply_nominalCu (v : Settings) : (g.recoveryApply v).nominalCu = v.nominal * 16000 := by
  simp [Gauge.recoveryApply]

@[simp] theorem Gauge.laterApply_nominalCu (v : Settings) : (g.laterApply v).nominalCu = v.nominal * 16000 := by
  simp [Gauge.laterApply]

@[simp] theorem Gauge.restore_nominalCu (n : GaugeNote) : (g.restore n).nominalCu = g.nominalCu := by
  unfold Gauge.restore
  dsimp only
  split
  · rfl
  split <;> rfl

@[simp] theorem Gauge.tally_nominalCu (discharging : Bool) : (g.tally discharging).nominalCu = g.nominalCu := by
  unfold Gauge.tally
  split <;> rfl

@[simp] theorem Gauge.afterGate_nominalCu (v : Settings) : (g.afterGate v).nominalCu = g.nominalCu := by
  rw [Gauge.afterGate_eq, Gauge.beforePeriod_frame]

end Nominal

/-! ### The law of a state -/

/-- An apply of the start-up fields too puts the whole of a lawful profile in force (R175). -/
theorem State.wholeApply_gaugeLaw (s : State) {p : ProfileImage} (hp : p.Lawful) (page : Option Nat) {g : Gauge}
    (hn : g.nominalCu = p.live.nominal * 16000) (hg : g.Lawful) : (s.wholeApply p page g).1.GaugeLaw where
  settings := ⟨{ hp.live with }, hp.installed.1, hp.installed.2, hp.rres⟩
  nominal := hn
  gauge := hg

namespace State.GaugeLaw

variable {s : State} (h : s.GaugeLaw)
include h

/-- The law speaks of the gauge, the settings, the installed count and the reserve alone. -/
theorem of_frame {t : State}
    (ht : t.gauge = s.gauge ∧ t.control.settings = s.control.settings ∧ t.control.installed = s.control.installed ∧
      t.control.rres = s.control.rres) : t.GaugeLaw := by
  obtain ⟨hg, hv, hi, hr⟩ := ht
  refine ⟨?settings, by rw [hg, hv]; exact h.nominal, hg ▸ h.gauge⟩
  unfold State.SettingsLaw
  rw [hv, hi, hr]
  exact h.settings

theorem of_control {t : State} (ht : t.gauge = s.gauge ∧ t.control = s.control) : t.GaugeLaw :=
  h.of_frame ⟨ht.1, by rw [ht.2]; exact ⟨rfl, rfl, rfl⟩⟩

theorem withGauge {g : Gauge} (hn : g.nominalCu = s.gauge.nominalCu) (hg : g.Lawful) : (s.withGauge g).GaugeLaw :=
  ⟨h.settings, hn.trans h.nominal, hg⟩

theorem learned_large : 256 ≤ s.gauge.learned := h.gauge.learned_large h.nominal h.settings.1.nominal.1

/-! ### The battery lines and the gates (chapter 6) -/

theorem batteryEdge (edge : HeldEdge) : (s.batteryEdge edge).GaugeLaw := by
  cases edge with
  | chgdone =>
    unfold State.batteryEdge
    dsimp only
    split
    · exact h.withGauge rfl h.gauge.full
    · exact h
  | pkempty =>
    unfold State.batteryEdge
    dsimp only
    split
    · split
      · have emptied : (s.withGauge s.gauge.learn.empty).GaugeLaw := h.withGauge rfl h.gauge.learn.empty
        exact emptied.of_control (by simp)
      · exact h.withGauge rfl h.gauge.emptied
    · exact h
  | pkpresFall =>
    have out : (s.withGauge s.gauge.packOut).GaugeLaw := h.withGauge rfl h.gauge.packOut
    exact out.of_control (by simp [State.batteryEdge])
  | pkpresRise =>
    have seated : (s.withGauge s.gauge.packIn).GaugeLaw := h.withGauge rfl h.gauge.packIn
    exact seated.of_control (by simp [State.batteryEdge])

theorem takeBatteryEdge (edge : HeldEdge) : (s.takeBatteryEdge edge).GaugeLaw := by
  unfold State.takeBatteryEdge
  split
  · exact h.withGauge rfl (h.gauge.hold _ _)
  · exact h.batteryEdge edge

/-- The hold's end: the tallies are converted and the held edges act in order (R111). -/
theorem endGaugeHold : s.endGaugeHold.GaugeLaw := by
  have edges (l : List HeldEdge) {u : State} (hu : u.GaugeLaw) : (l.foldl State.batteryEdge u).GaugeLaw := by
    induction l generalizing u with
    | nil => exact hu
    | cons e l ih => exact ih (hu.batteryEdge e)
  unfold State.endGaugeHold
  split
  · exact edges _ (h.withGauge (by simp) (h.gauge.convertTallies.hold _ _))
  · exact h

theorem endGate : s.endGate.GaugeLaw := by
  have found := h.gauge.beforePeriod s.control.settings
  have large : 256 ≤ (s.gauge.beforePeriod s.control.settings).learned := by
    rw [Gauge.beforePeriod_frame]
    exact h.learned_large
  have gate : (s.withGauge (s.gauge.afterGate s.control.settings)).GaugeLaw :=
    h.withGauge (by simp) (found.period h.settings.1 large).nextGate
  exact gate.of_control (by rw [State.endGate_eq]; exact ⟨rfl, rfl⟩)

/-! ### Applies (R174, R175, R181) -/

theorem laterApply {p : ProfileImage} (hp : p.live.Lawful) (page : Option Nat) : (s.laterApply p page).1.GaugeLaw where
  settings := ⟨{ hp with }, h.settings.2⟩
  nominal := s.gauge.laterApply_nominalCu p.live
  gauge := h.gauge.laterApply hp

theorem startUpApply {p : ProfileImage} (hp : p.Lawful) (page : Option Nat) : (s.startUpApply p page).1.GaugeLaw :=
  s.wholeApply_gaugeLaw hp page (by simp) (h.gauge.startUpApply hp.live)

theorem recoveryApply : s.recoveryApply.GaugeLaw :=
  s.wholeApply_gaugeLaw defaultProfile_lawful none (by simp [defaultProfile])
    (h.gauge.recoveryApply defaultProfile_lawful.live)

theorem serviceApply (image : Page) (page : Nat) : (s.serviceApply image page).GaugeLaw := by
  unfold State.serviceApply
  split
  · exact h.of_control (by simp)
  next profile clamped hp => exact (h.laterApply (testProfile_lawful hp).live (some page)).of_control (by simp)

theorem applyAtStartUp (r : ScanResult) : (s.applyAtStartUp r).GaugeLaw := by
  have defaults := h.startUpApply defaultProfile_lawful none
  unfold State.applyAtStartUp
  split
  next page image failed =>
    split
    · exact defaults.of_control (by simp)
    next profile clamped hp => exact (h.startUpApply (testProfile_lawful hp) (some page)).of_control (by simp)
  · exact defaults.of_control (by simp)
  · exact defaults.of_control (by simp)

theorem applyAtLineReset (r : ScanResult) : (s.applyAtLineReset r).GaugeLaw := by
  unfold State.applyAtLineReset
  split
  next page image failed =>
    split
    · exact h.of_control (by simp)
    next profile clamped hp => exact (h.laterApply (testProfile_lawful hp).live (some page)).of_control (by simp)
  · exact (h.laterApply defaultProfile_lawful.live none).of_control (by simp)
  · exact h.of_control (by simp)

end State.GaugeLaw

end Sys2Proof.Machine
end

section
/-! The Charge Gauge's bounds (R107, R110): the Service Controller's sequences and the consequences of an event keep
them. -/

namespace Sys2Proof.Machine

namespace State.GaugeLaw

variable {s : State} (h : s.GaugeLaw)
include h

/-! ### The note outcome and the scans (R145, R170 to R177, R183) -/

/-- The sequence goes on and makes its next request. -/
theorem ask (q : Sequence) (op : ServiceOp) : ((s.withSequence q).request op).GaugeLaw :=
  h.of_frame ⟨rfl, rfl, rfl, rfl⟩

theorem openOrFinish (o : Opening) : (s.openOrFinish o).GaugeLaw := h.of_frame (by simp)

theorem loadCounters (dropBase sequenceBase : Tick) : (s.loadCounters dropBase sequenceBase).GaugeLaw :=
  h.of_control (by simp)

theorem cleanStart (page : Nat) (image : Page) : (s.cleanStart page image).GaugeLaw := by
  have loaded := h.loadCounters (noteDropCounter image) (noteSequence image)
  have restored := (loaded.withGauge (by simp) (loaded.gauge.restore (noteGauge_drawn image))).endGaugeHold
  exact restored.of_frame (by simp [State.cleanStart])

theorem uncleanStart (page : Nat) (image : Page) : (s.uncleanStart page image).GaugeLaw :=
  (h.loadCounters _ _).endGaugeHold.openOrFinish _

theorem noNoteStart : s.noNoteStart.GaugeLaw := (h.loadCounters 0 0).endGaugeHold.openOrFinish _

theorem settleNote (best : Option (Nat × Page)) : (s.settleNote best).GaugeLaw := by
  unfold State.settleNote
  split
  · exact h.noNoteStart
  · split
    · exact h.cleanStart _ _
    · exact h.uncleanStart _ _

theorem loseNote : s.loseNote.GaugeLaw := h.of_frame (by simp)

theorem noteScanned (page : Nat) (best : Option (Nat × Page)) (data : Page) :
    (s.noteScanned page best data).GaugeLaw := by
  have placed (n : Nat) : (s.withControl { s.control with nextNotePage := some n }).GaugeLaw := h.of_frame (by simp)
  unfold State.noteScanned
  split
  · exact (placed page).settleNote best
  · dsimp only
    split
    · exact (placed 128).settleNote _
    · exact h.ask _ _

theorem probeNext (dies : List Die) : (s.probeNext dies).GaugeLaw := by
  cases dies with
  | nil =>
    unfold State.probeNext State.beginNoteScan
    dsimp only
    split
    · exact h.ask _ _
    · exact h.loseNote.settleNote none
  | cons d rest => exact h.ask _ _

theorem scanEnded (purpose : ScanFor) (result : ScanResult) : (s.scanEnded purpose result).GaugeLaw := by
  cases purpose with
  | startUp => exact (h.applyAtStartUp result).probeNext _
  | lineReset => exact (h.applyAtLineReset result).of_frame (by simp [State.scanEnded])

theorem beginScan (purpose : ScanFor) : (s.beginScan purpose).GaugeLaw := by
  unfold State.beginScan
  exact iteInduction (motive := State.GaugeLaw) (fun _ => h.ask _ _) (fun _ => h.scanEnded purpose .unread)

theorem scanOn (purpose : ScanFor) (page : Nat) (best : Option (Nat × Page)) (failed : Nat) :
    (s.scanOn purpose page best failed).GaugeLaw := by
  unfold State.scanOn
  split
  · exact h.scanEnded purpose _
  · exact h.ask _ _

theorem profileScanned (purpose : ScanFor) (page : Nat) (best : Option (Nat × Page)) (failed : Nat) (data : Page) :
    (s.profileScanned purpose page best failed data).GaugeLaw := by
  unfold State.profileScanned
  split
  · exact h.scanEnded purpose _
  · split
    · exact h.scanOn _ _ _ _
    · exact h.scanOn _ _ _ _

theorem lineProbeNext (dies : List Die) : (s.lineProbeNext dies).GaugeLaw := h.of_frame (by simp)

/-! ### Dip recovery, SPENT and the flush (R132 to R149) -/

theorem recoverSettings : s.recoverSettings.GaugeLaw := by
  unfold State.recoverSettings
  split
  · exact h.recoveryApply
  · exact h

theorem beginRecovery : s.beginRecovery.GaugeLaw := by
  have counted : s.recoverCounters.GaugeLaw := h.of_control (by simp)
  have reported : s.recoverCounters.recoverSettings.recoverDrops.GaugeLaw :=
    counted.recoverSettings.of_control (by simp)
  exact reported.openOrFinish .dipRecovery

theorem enterSpent : s.enterSpent.GaugeLaw := by
  have spent : ((s.withSequence .none).withServiceState .spent).GaugeLaw := h.of_frame (by simp)
  unfold State.enterSpent
  dsimp only
  split
  · exact spent.beginRecovery
  · exact spent

theorem stopStartUp : s.stopStartUp.GaugeLaw := by
  unfold State.stopStartUp
  exact (endGaugeHold (h.of_frame (by simp))).enterSpent

theorem stopRecovery : s.stopRecovery.GaugeLaw := h.of_frame (by simp)

theorem endFlush (outcome : FlushNoteOutcome) : (s.endFlush outcome).GaugeLaw := by
  have noted : (s.withControl { s.control with flushNote := some outcome }).GaugeLaw := h.of_frame (by simp)
  exact noted.enterSpent

theorem endDrain : s.endDrain.GaugeLaw := by
  have lost : s.loseEntries.GaugeLaw := h.of_frame (by simp)
  unfold State.endDrain
  dsimp only
  split
  · exact lost.ask _ _
  · exact lost.endFlush _

/-! ### Results (R27, R50, R51, R72, R143, R148) -/

theorem noteWritten (op : ServiceOp) (r : MediaResult) : (s.noteWritten op r).GaugeLaw := h.of_frame (by simp)

theorem oldNoteWritten (op : ServiceOp) (r : MediaResult) : (s.oldNoteWritten op r).GaugeLaw := h.of_frame (by simp)

theorem sequenceResult (op : ServiceOp) (r : MediaResult) : (s.sequenceResult op r).GaugeLaw := by
  unfold State.sequenceResult
  split
  next => exact h
  next => exact h
  next => exact h.beginScan .startUp
  next =>
    split
    · exact h.profileScanned _ _ _ _ _
    · exact h.scanOn _ _ _ _
    · exact h.scanEnded _ _
    · exact h.scanEnded _ _
  next => exact h.probeNext _
  next =>
    split
    · exact h.noteScanned _ _ _
    · exact h.loseNote.settleNote _
  next => exact (h.noteWritten op r).openOrFinish _
  next => exact (h.noteWritten op r).of_frame (by simp)
  next => exact h.lineProbeNext _
  next => exact h
  next => exact h
  next => exact (h.noteWritten op r).endFlush _

theorem serviceDone (request : ServiceRequest) (r : MediaResult) : (s.serviceDone request r).GaugeLaw := by
  unfold State.serviceDone
  split
  · exact h.sequenceResult _ _
  · exact h.oldNoteWritten _ _
  · exact h

theorem applyCommitted (e : Entry) : (s.applyCommitted e).GaugeLaw := by
  unfold State.applyCommitted
  split
  · exact h.serviceApply _ _
  · exact h

theorem dropDeparted (tag : Option Tick) (way : Departure) : (s.dropDeparted tag way).GaugeLaw := h.of_control (by simp)

theorem afterPass (e : Entry) : (s.afterPass e).GaugeLaw := by
  have chosen : (s.withFree (s.free + 1)).GaugeLaw := h.of_control ⟨rfl, rfl⟩
  unfold State.afterPass
  dsimp only
  split
  · split
    · exact (chosen.dropDeparted _ _).applyCommitted e
    · exact (chosen.applyCommitted e).dropDeparted _ _
  · exact (h.dropDeparted _ _).applyCommitted e

theorem passCommit (e : Entry) : (s.passCommit e).GaugeLaw := by
  unfold State.passCommit
  exact afterPass (h.of_frame (by simp)) e

theorem failCommit (e : Entry) (cause : FailCause) : (s.failCommit e cause).GaugeLaw := h.of_frame (by simp)

theorem commitDone (d : Die) (r : MediaResult) : (s.commitDone d r).GaugeLaw := by
  have left : (s.withQueue { s.queue with entries := removeOldest d s.queue.entries }).GaugeLaw :=
    h.of_control ⟨rfl, rfl⟩
  unfold State.commitDone
  split
  · exact h
  · dsimp only
    split
    · exact left.passCommit _
    · exact left.failCommit _ _

theorem frontReadDone (base : Page) (failed : Bool) : (s.frontReadDone base failed).GaugeLaw := h.of_control (by simp)

theorem handResult (d : Die) (requester : Requester) (r : MediaResult) (data : Page) :
    (s.handResult d requester r data).GaugeLaw := by
  unfold State.handResult
  split
  · exact h
  · exact h.frontReadDone _ _
  · exact h.commitDone _ _
  · exact h.serviceDone _ _

/-! ### The consequences of an event (R49, R65 to R69, R75, R77) -/

theorem takeRequest (r : ServiceRequest) : (s.takeRequest r).GaugeLaw := h.of_control ⟨rfl, rfl⟩

theorem countFailure : s.countFailure.GaugeLaw := h.of_control ⟨rfl, rfl⟩

theorem startService (d : Die) (r : ServiceRequest) : (s.startService d r).GaugeLaw := by
  have taken := h.takeRequest r
  have started (kind : MediaKind) (row : Option Nat) (image : Page) :
      ((s.takeRequest r).startMedia d kind row image (.service r)).GaugeLaw := taken.of_control ⟨rfl, rfl⟩
  unfold State.startService
  dsimp only
  split
  · exact started _ _ _
  · exact started _ _ _
  · exact started _ _ _
  · exact started _ _ _
  · exact (started .program (s.serviceRow r.op) s.composeOpenedNote).of_frame (by simp)
  next image _ =>
    split
    · exact taken.endFlush _
    · exact (started .program (s.serviceRow r.op) image).of_frame (by simp)

theorem micro {t : State} (ht : s.micro = some t) : t.GaugeLaw := by
  refine State.micro_keeps (P := State.GaugeLaw) ?free ?service ?front ?commit ?probe ?pass ?fail ?failFront ?failCommit
    ?scan ?drain s t h ht
  case free => exact fun s n hs => hs.of_control ⟨rfl, rfl⟩
  case service => exact fun s d r hs _ _ _ _ _ => hs.startService d r
  case front =>
    intro s d row contested hs _ _ _ _
    cases contested
    · exact hs.of_control ⟨rfl, rfl⟩
    · exact hs.of_control ⟨rfl, rfl⟩
  case commit => exact fun s d e hs _ _ _ => hs.of_frame (by simp)
  case probe => exact fun s r hs _ _ _ => hs.startService _ r
  case pass => exact fun s r hs _ _ _ => (hs.takeRequest r).serviceDone r _
  case fail => exact fun s r hs _ _ _ => (hs.takeRequest r).countFailure.serviceDone r _
  case failFront => exact fun s d row hs _ _ _ => hs.of_control (by simp)
  case failCommit => exact fun s d e hs _ _ => hs.countFailure.commitDone d _
  case scan => exact fun s hs _ _ => hs.beginScan .lineReset
  case drain => exact fun s hs _ _ => hs.endDrain

theorem settled : s.settled.GaugeLaw :=
  State.settled_keeps (fun _ _ hs ht => hs.micro ht) (fun _ hs => hs.of_control (by simp)) s h

end State.GaugeLaw

end Sys2Proof.Machine
end

section
/-! The Charge Gauge's bounds (R107, R110): every command keeps them. -/

namespace Sys2Proof.Machine

/-! ### The front's operations leave the gauge (chapter 2) -/

section FrontGauge

variable (s : State)

@[simp] theorem State.endTransaction_gauge : s.endTransaction.gauge = s.gauge := by
  unfold State.endTransaction
  split
  all_goals rfl

@[simp] theorem State.takeOperation_gauge (kind : OpKind) : (s.takeOperation kind).gauge = s.gauge := by
  unfold State.takeOperation
  dsimp only
  split
  · rfl
  split
  · rfl
  split
  · rfl
  · simp [State.deselect]

@[simp] theorem State.resetOperation_frame :
    s.resetOperation.gauge = s.gauge ∧ s.resetOperation.control = s.control := by
  have ended : s.endTransaction.gauge = s.gauge ∧ s.endTransaction.control = s.control := by simp
  unfold State.resetOperation
  split
  · exact ⟨rfl, rfl⟩
  · exact ended
  · exact ⟨rfl, rfl⟩
  · exact ended
  · exact ended
  · unfold State.resetAwaiting
    split
    · simp
    · exact ⟨rfl, rfl⟩

@[simp] theorem State.refuse_gauge (cause : RefusalCause) (op : OpKind) (row : BitVec 24) (absolute : Bool) :
    (s.refuse cause op row absolute).gauge = s.gauge := by
  unfold State.refuse
  dsimp only
  split <;> rfl

@[simp] theorem State.receive_gauge (op : Translated) : (s.receive op).gauge = s.gauge := by
  unfold State.receive
  split
  all_goals rfl

@[simp] theorem State.takeData_gauge (op : Translated) (next : Nat) (byte : Byte) :
    (s.takeData op next byte).gauge = s.gauge := by
  unfold State.takeData
  dsimp only
  split
  all_goals rfl

@[simp] theorem State.accept_gauge (op : Translated) (row : Nat) : (s.accept op row).gauge = s.gauge := by
  simp [State.accept]

@[simp] theorem State.endConsumption_gauge : s.endConsumption.gauge = s.gauge := by
  unfold State.endConsumption
  dsimp only
  split
  · rfl
  · simp

@[simp] theorem State.flushFront_frame : s.flushFront.gauge = s.gauge ∧ s.flushFront.control = s.control := by
  unfold State.flushFront
  dsimp only
  split
  all_goals exact ⟨rfl, rfl⟩

@[simp] theorem State.lineFront_frame : s.lineFront.gauge = s.gauge ∧ s.lineFront.control = s.control := by
  unfold State.lineFront
  dsimp only
  split
  all_goals exact ⟨rfl, rfl⟩

end FrontGauge

namespace State.GaugeLaw

variable {s : State} (h : s.GaugeLaw)
include h

/-! ### The front store bus (R19 to R37) -/

theorem takeOperation (kind : OpKind) : (s.takeOperation kind).GaugeLaw := h.of_control (by simp)

theorem execStatus {t : State} (ht : execStatus s = .next t) : t.GaugeLaw := by
  have ended : s.endTransaction.GaugeLaw := h.of_control (by simp)
  cases ht
  split
  · exact h
  split
  · exact h.of_control ⟨rfl, rfl⟩
  · exact ended.of_control ⟨rfl, rfl⟩

theorem execReset {t : State} (ht : execReset s = .next t) : t.GaugeLaw := by
  have abandoned : s.resetOperation.GaugeLaw := h.of_control (by simp)
  cases ht
  split
  · exact h
  split
  · exact h.of_control ⟨rfl, rfl⟩
  · exact abandoned.of_control ⟨rfl, rfl⟩

theorem execUnknownOperationByte {byte : Byte} {t : State} (ht : execUnknownOperationByte byte s = .next t) :
    t.GaugeLaw := by
  unfold Machine.execUnknownOperationByte at ht
  split at ht
  · cases ht
    exact h
  · cases ht
    exact h.takeOperation .read
  · cases ht
    exact h.takeOperation .program
  · cases ht
    exact h.takeOperation .erase
  · exact h.execStatus ht
  · exact h.execReset ht

theorem snoop (row column : Nat) : (s.snoop row column).GaugeLaw := by
  unfold State.snoop
  split
  · exact h.of_control ⟨rfl, rfl⟩
  · exact settled (h.of_control ⟨rfl, rfl⟩)

theorem route (op : Translated) : (s.route op).GaugeLaw := by
  have passed : s.clearRefused.GaugeLaw := h.of_control ⟨rfl, rfl⟩
  unfold State.route
  dsimp only
  split
  · split
    · exact passed.snoop _ _
    · exact passed.of_control ⟨rfl, rfl⟩
    · exact passed.snoop _ _
    · exact passed.snoop _ _
  · exact passed.of_control (by simp)
  · exact passed.of_control (by simp)

theorem execAddressByte {byte : Byte} {t : State} (ht : execAddressByte byte s = .next t) : t.GaugeLaw := by
  cases ht
  split
  · exact h
  split
  · unfold State.endAddress
    split
    · exact h.of_control (by simp)
    · exact h.route _
  · exact h.of_control ⟨rfl, rfl⟩
  all_goals exact h

theorem execDataByte {byte : Byte} {t : State} (ht : execDataByte byte s = .next t) : t.GaugeLaw := by
  cases ht
  split
  · exact h
  split
  · split
    · exact h.of_control (by simp)
    · exact h
  all_goals exact h

theorem execReadStrobe {t : State} (ht : execReadStrobe s = .next t) : t.GaugeLaw := by
  cases ht
  split
  · exact h.of_control ⟨rfl, rfl⟩
  split
  all_goals exact h.of_control ⟨rfl, rfl⟩

theorem execEnd {t : State} (ht : execEnd s = .next t) : t.GaugeLaw := by
  have accepted (op : Translated) (row : Nat) : (s.accept op row).offerAnew.GaugeLaw := by
    have queued : (s.accept op row).GaugeLaw := h.of_control (by simp)
    unfold State.offerAnew
    split
    · exact queued.settled
    · exact queued
  cases ht
  split
  · exact h
  split
  · split
    · exact h.of_control (by simp)
    · exact accepted _ _
    · exact accepted _ _
    · exact accepted _ _
  all_goals exact h

/-! ### The media side (R65, R72 to R77) -/

theorem completeMedia (d : Die) (op : MediaOp) (r : MediaResult) (data : Page) :
    (s.completeMedia d op r data).GaugeLaw := by
  have freed : (s.withDie d .idle).GaugeLaw := h.of_control ⟨rfl, rfl⟩
  unfold State.completeMedia
  refine settled (handResult ?_ _ _ _ _)
  split
  · exact freed
  · exact freed.countFailure

theorem timeOut (d : Die) (op : MediaOp) (start : Tick) (timeoutMs : Nat) :
    (s.timeOut d op start timeoutMs).GaugeLaw := by
  have off : (s.withDie d .offline).GaugeLaw := h.of_control ⟨rfl, rfl⟩
  have recorded (cause : OfflineCause) {u : State} (hu : u.GaugeLaw) :
      (u.recordOffline d op cause start timeoutMs).GaugeLaw := hu.of_control ⟨rfl, rfl⟩
  unfold State.timeOut
  split
  · exact (recorded _ off).handResult _ _ _ _
  all_goals exact recorded _ (off.countFailure.handResult _ _ _ _)

theorem execCommandTransferEnd {d : Die} {t : State} (ht : execCommandTransferEnd d s = .next t) : t.GaugeLaw := by
  cases ht
  split
  · exact h
  · exact h
  · split
    · exact h.of_control ⟨rfl, rfl⟩
    · exact h

theorem execMrdySeenHigh {d : Die} {t : State} (ht : execMrdySeenHigh d s = .next t) : t.GaugeLaw := by
  cases ht
  split
  · exact h
  · exact h
  · split
    · split
      case h_4 => exact h.completeMedia _ _ _ _
      all_goals exact h.of_control ⟨rfl, rfl⟩
    all_goals exact h

theorem execReadoutEnd {d : Die} {page : Page} {t : State} (ht : execReadoutEnd d page s = .next t) : t.GaugeLaw := by
  cases ht
  split
  · exact h
  · exact h
  · split
    · exact h.of_control ⟨rfl, rfl⟩
    · exact h

theorem execMediaOperationComplete {d : Die} {status : Byte} {t : State}
    (ht : execMediaOperationComplete d status s = .next t) : t.GaugeLaw := by
  have released : s.releaseLines.GaugeLaw := h.of_control ⟨rfl, rfl⟩
  cases ht
  split
  · exact h
  · exact h
  · split
    · split
      · exact released.completeMedia _ _ _ _
      · exact h
    all_goals exact h

theorem execDieTimeout {d : Die} {t : State} (ht : execDieTimeout d s = .next t) : t.GaugeLaw := by
  cases ht
  split
  · exact h
  · exact h
  · split
    · split
      · exact (h.timeOut _ _ _ _).settled
      · exact h
    all_goals exact h

/-! ### The motion lines and their timers (R80 to R94) -/

theorem execFfallRise {t : State} (ht : execFfallRise s = .next t) : t.GaugeLaw := by
  cases ht
  split
  · exact h
  · dsimp only
    split
    all_goals exact h.of_control ⟨rfl, rfl⟩

theorem execFfallFall {t : State} (ht : execFfallFall s = .next t) : t.GaugeLaw := by
  cases ht
  split
  · dsimp only
    split
    · exact h.of_control ⟨rfl, rfl⟩
    · split
      all_goals exact h.of_control ⟨rfl, rfl⟩
  · exact h

theorem execFimpRise {t : State} (ht : execFimpRise s = .next t) : t.GaugeLaw := by
  cases ht
  split
  · exact h
  · dsimp only
    split
    · split
      all_goals exact h.of_control ⟨rfl, rfl⟩
    all_goals exact h.of_control ⟨rfl, rfl⟩

theorem execFimpFall {t : State} (ht : execFimpFall s = .next t) : t.GaugeLaw := by
  cases ht
  split
  · exact h.of_control ⟨rfl, rfl⟩
  · exact h

theorem execMergeTimerExpiry {t : State} (ht : execMergeTimerExpiry s = .next t) : t.GaugeLaw := by
  cases ht
  split
  · exact h.of_control ⟨rfl, rfl⟩
  · exact h

theorem closeDrop (ceiling : Bool) : (s.closeDrop ceiling).GaugeLaw := by
  unfold State.closeDrop
  exact h.of_control (by simp)

theorem suspendFreeFall (drop : Tick) (ceilingMs : Nat) : (s.suspendFreeFall drop ceilingMs).GaugeLaw := by
  unfold State.suspendFreeFall
  split
  · exact h.of_control ⟨rfl, rfl⟩
  · exact h

theorem execSettleTimerExpiry {t : State} (ht : execSettleTimerExpiry s = .next t) : t.GaugeLaw := by
  cases ht
  split
  · exact (h.closeDrop _).settled
  · exact h

theorem execCeilingTimerExpiry {t : State} (ht : execCeilingTimerExpiry s = .next t) : t.GaugeLaw := by
  cases ht
  split
  · exact ((h.closeDrop _).suspendFreeFall _ _).settled
  · exact h

/-! ### The battery lines and the gates (R106 to R122) -/

theorem execQpulseRise {qdir : Bool} {t : State} (ht : execQpulseRise qdir s = .next t) : t.GaugeLaw := by
  cases ht
  split
  · exact h.withGauge (by simp) (h.gauge.tally qdir)
  split
  · exact h.withGauge rfl h.gauge.discharge
  · exact h.withGauge rfl h.gauge.charge

theorem execTfreqRise {t : State} (ht : execTfreqRise s = .next t) : t.GaugeLaw := by
  cases ht
  exact h.withGauge rfl h.gauge.count

theorem execGateEnd {t : State} (ht : execGateEnd s = .next t) : t.GaugeLaw := by
  cases ht
  split
  · exact h.endGate
  · exact h

theorem execMinuteBoundary {t : State} (ht : execMinuteBoundary s = .next t) : t.GaugeLaw := by
  cases ht
  split
  · exact h.withGauge rfl h.gauge.takeBoundary
  · exact h

theorem withPins (p : LineLevels) : (s.withPins p).GaugeLaw := h.of_control ⟨rfl, rfl⟩

theorem execPkpresFall {t : State} (ht : execPkpresFall s = .next t) : t.GaugeLaw := by
  cases ht
  split
  · exact (h.withPins _).takeBatteryEdge _
  · exact h

theorem execPkpresRise {t : State} (ht : execPkpresRise s = .next t) : t.GaugeLaw := by
  cases ht
  split
  · exact h
  · exact (h.withPins _).takeBatteryEdge _

/-! ### The supply, the line reset and the Timebase -/

theorem execStartUpSettleEnd {t : State} (ht : execStartUpSettleEnd s = .next t) : t.GaugeLaw := by
  cases ht
  split
  · split
    · exact (h.ask _ _).settled
    · exact h.stopStartUp.settled
  · exact h

theorem enterFlushing : s.enterFlushing.GaugeLaw := by
  have begun : s.flushControl.GaugeLaw := h.of_frame ⟨rfl, rfl, rfl, rfl⟩
  have fronted : s.flushControl.flushFront.GaugeLaw := begun.of_control (by simp)
  exact settled (fronted.of_control ⟨rfl, rfl⟩)

theorem execSupgoodFall {t : State} (ht : execSupgoodFall s = .next t) : t.GaugeLaw := by
  have low := h.withPins { s.pins with supgood := false }
  cases ht
  split
  · dsimp only
    split
    · exact low.stopStartUp.settled
    · exact low.enterFlushing
    · exact low.enterFlushing
    · exact low
    · exact low.stopRecovery.settled
  · exact h

theorem execSupgoodRise {t : State} (ht : execSupgoodRise s = .next t) : t.GaugeLaw := by
  have high := h.withPins { s.pins with supgood := true }
  cases ht
  split
  · exact h
  · dsimp only
    split
    case h_5 => exact high.beginRecovery.settled
    all_goals exact high

theorem execRsvgoodFall {t : State} (ht : execRsvgoodFall s = .next t) : t.GaugeLaw := by
  have low := h.withPins { s.pins with rsvgood := false }
  cases ht
  split
  · dsimp only
    split
    case h_4 => exact settled (low.of_frame ⟨rfl, rfl, rfl, rfl⟩)
    all_goals exact low
  · exact h

theorem execRsvgoodRise {t : State} (ht : execRsvgoodRise s = .next t) : t.GaugeLaw := by
  cases ht
  split
  · exact h
  · exact h.withPins _

theorem detach : (s.withQueue s.queue.detach).GaugeLaw := h.of_control ⟨rfl, rfl⟩

theorem clearPatience : (s.withMedia s.media.clearPatience).GaugeLaw := h.of_control ⟨rfl, rfl⟩

theorem beginLineReset : s.beginLineReset.GaugeLaw := by
  have marked : (s.lineControl (s.queue.entries.any Entry.withdrawable)).GaugeLaw := h.of_frame ⟨rfl, rfl, rfl, rfl⟩
  have withdrawn : (s.lineControl (s.queue.entries.any Entry.withdrawable)).lineFront.withdraw.GaugeLaw :=
    marked.of_control (by simp)
  exact (withdrawn.detach.clearPatience.lineProbeNext _).settled

theorem execLrst {t : State} (ht : execLrst s = .next t) : t.GaugeLaw := by
  cases ht
  split
  case h_1 => exact h.beginLineReset
  all_goals exact h

theorem execTick {t : State} (ht : execTick s = .next t) : t.GaugeLaw := by
  cases ht
  exact ⟨h.settings, h.nominal, h.gauge.tickGate _⟩

end State.GaugeLaw

/-! ### Power-on (R107, R169) -/

theorem Gauge.Lawful.powerOn (seated : Bool) : (Gauge.powerOn seated).Lawful := by
  have lawful : (Gauge.powerOn true).Lawful :=
    ⟨by decide, by decide, nofun, by decide, by decide, by decide, by decide, by decide, by decide, by decide,
      by decide, by decide, by decide⟩
  exact { lawful with }

theorem State.GaugeLaw.powerOn (levels : LineLevels) (free : Nat) (pending : List Instr) :
    (State.powerOn levels free pending).GaugeLaw where
  settings :=
    ⟨defaultProfile_lawful.live, defaultProfile_lawful.installed.1, defaultProfile_lawful.installed.2,
      defaultProfile_lawful.rres⟩
  nominal := by
    have nominal : (State.powerOn levels free pending).control.settings.nominal = 6800 := rfl
    rw [nominal]
    rfl
  gauge := .powerOn levels.pkpres

/-! ### The obligation -/

/-- Every command keeps the law. -/
theorem State.GaugeLaw.exec {c : Instr} {s t : State} (h : s.GaugeLaw) (ht : exec c s = .next t) : t.GaugeLaw := by
  cases c with
  | powerOn levels => cases ht; exact .powerOn levels s.free s.pending
  | startUpSettleEnd => exact h.execStartUpSettleEnd ht
  | read => cases ht; exact h.takeOperation .read
  | program => cases ht; exact h.takeOperation .program
  | erase => cases ht; exact h.takeOperation .erase
  | status => exact h.execStatus ht
  | reset => exact h.execReset ht
  | unknownOperationByte byte => exact h.execUnknownOperationByte ht
  | addressByte byte => exact h.execAddressByte ht
  | dataByte byte => exact h.execDataByte ht
  | readStrobe => exact h.execReadStrobe ht
  | endStrobe => exact h.execEnd ht
  | commandTransferEnd die => exact h.execCommandTransferEnd ht
  | mrdySeenHigh die => exact h.execMrdySeenHigh ht
  | readoutEnd die page => exact h.execReadoutEnd ht
  | mediaOperationComplete die status => exact h.execMediaOperationComplete ht
  | dieTimeout die => exact h.execDieTimeout ht
  | ffallRise => exact h.execFfallRise ht
  | ffallFall => exact h.execFfallFall ht
  | fimpRise => exact h.execFimpRise ht
  | fimpFall => exact h.execFimpFall ht
  | mergeTimerExpiry => exact h.execMergeTimerExpiry ht
  | settleTimerExpiry => exact h.execSettleTimerExpiry ht
  | ceilingTimerExpiry => exact h.execCeilingTimerExpiry ht
  | qpulseRise qdir => exact h.execQpulseRise ht
  | tfreqRise => exact h.execTfreqRise ht
  | gateEnd => exact h.execGateEnd ht
  | minuteBoundary => exact h.execMinuteBoundary ht
  | chgdoneRise => cases ht; exact h.takeBatteryEdge .chgdone
  | pkemptyRise => cases ht; exact h.takeBatteryEdge .pkempty
  | pkpresFall => exact h.execPkpresFall ht
  | pkpresRise => exact h.execPkpresRise ht
  | supgoodFall => exact h.execSupgoodFall ht
  | supgoodRise => exact h.execSupgoodRise ht
  | rsvgoodFall => exact h.execRsvgoodFall ht
  | rsvgoodRise => exact h.execRsvgoodRise ht
  | lrst => exact h.execLrst ht
  | tick => exact h.execTick ht

/-- Settles O52: every command keeps the bounds. Three facts carry it: a profile that passes its test is in range
(`testProfile_lawful`), an apply leaves N at the nominal it puts in force and Lc between the bounds N gives it
(`Gauge.Lawful.withCapacity`), and a period of a lawful gauge under lawful settings computes a state of charge of at most
100 (`Gauge.Lawful.period`). -/
theorem gaugeLawIsKept : Obligations.GaugeLawIsKept :=
  fun _ _ h ht => step_keeps (fun _ _ h => h.of_control ⟨rfl, rfl⟩) (fun _ _ _ h ht => h.exec ht) ht h

end Sys2Proof.Machine
end

section
/-! START_UP_SETTLE_END (09): start-up begins, or the part goes to SPENT (R133, R169, R170). -/

namespace Sys2Proof.Machine

theorem PerDie.map_eq_self {α : Type} {f : α → α} {v : PerDie α} (h : ∀ d, f (v.get d) = v.get d) : v.map f = v := by
  obtain ⟨v0, v1, v2, v3⟩ := v
  have h0 : f v0 = v0 := h 0
  have h1 : f v1 = v1 := h 1
  have h2 : f v2 = v2 := h 2
  have h3 : f v3 = v3 := h 3
  simp [PerDie.map, h0, h1, h2, h3]

/-- A die in whose operation the Service Controller has no part is not touched by a change of standing. -/
theorem DieRecord.restand_unrequested {r : DieRecord} (h : r.state.serviceRequest = none) (standing : Standing) :
    r.restand standing = r := by
  unfold DieRecord.restand
  split
  · rfl
  · rfl
  next op hop =>
    split
    · rfl
    · rfl
    next request hr => simp [hop, DieState.serviceRequest, hr] at h

/-- With no request waiting or in progress there is none to withdraw or to disregard. -/
theorem Scheduler.restand_unrequested {m : Scheduler} (hs : m.services = [])
    (hd : ∀ d, (m.dies.get d).state.serviceRequest = none) (standing : Standing) :
    m.withdrawNotes.restand standing = m := by
  have dies : m.dies.map (DieRecord.restand standing) = m.dies :=
    PerDie.map_eq_self fun d => DieRecord.restand_unrequested (hd d) standing
  obtain ⟨_, _, _, services, _⟩ := m
  subst hs
  simpa [Scheduler.restand, Scheduler.withdrawNotes] using dies

theorem State.enterSpent_low {s : State} (h : s.pins.supgood = false) :
    s.enterSpent = (s.withSequence .none).withServiceState .spent := by
  simp [State.enterSpent, h]

section SettleEnd

variable {s : State} {elapsed : Nat} (hq : s.control.sequence = .settling elapsed) (he : 200 ≤ elapsed)
include hq he

theorem exec_startUpSettleEnd_good (h : s.pins.supgood = true) :
    exec .startUpSettleEnd s = .next ((s.withSequence .probeDieZero).request (.probe 0)).settled := by
  simp [exec, execStartUpSettleEnd, hq, Sequence.settleDue, he, h]

theorem exec_startUpSettleEnd_low (h : s.pins.supgood = false) :
    exec .startUpSettleEnd s = .next s.stopStartUp.settled := by
  simp [exec, execStartUpSettleEnd, hq, Sequence.settleDue, he, h]

end SettleEnd

/-- Start-up stops before it has requested or found anything: the note block is unusable and the hold ends (R133). -/
theorem State.stopStartUp_settling {s held : State} (hp : s.pins.supgood = false) (hs : s.media.services = [])
    (hd : ∀ d, (s.die d).serviceRequest = none) (hn : s.control.nextNotePage = none)
    (hheld : held = State.endGaugeHold { s with
      control := { s.control with noteUsable := false, dipStart := s.tick } }) :
    s.stopStartUp = { held with
      control := { s.control with
        state := .spent, sequence := .none, noteUsable := false, dipStart := s.tick } } := by
  have pins : held.pins.supgood = false := by simpa [hheld] using hp
  have control : held.control = { s.control with noteUsable := false, dipStart := s.tick } := by simp [hheld]
  have noted : (s.withControl { s.control with
      noteUsable := s.control.noteUsable && s.control.nextNotePage.isSome
      dipStart := s.tick }).endGaugeHold = held := by
    rw [hheld, hn, Option.isSome_none, Bool.and_false]
    rfl
  unfold State.stopStartUp
  rw [Scheduler.restand_unrequested hs hd, State.withMedia_self]
  dsimp only
  rw [noted, State.enterSpent_low pins, State.withServiceState, State.withSequence, control]
  rfl

/-- Settles O34: with the supply low start-up stops with no request made (`State.stopStartUp_settling`). -/
theorem settleEndBeginsStartUp : Obligations.SettleEndBeginsStartUp := by
  refine fun s elapsed hq he => ⟨fun hp => exec_startUpSettleEnd_good hq he hp, fun hp hs hd hn => ?_⟩
  rw [exec_startUpSettleEnd_low hq he hp, State.stopStartUp_settling hp hs hd hn rfl]

end Sys2Proof.Machine
end

section
/-! What a service result does with start-up, the scans, the OPENED note and the line reset (R132, R133, R143, R148, R170 to
R183). -/

namespace Sys2Proof.Machine

/-! ### The scans and their ends (R170, R172, R176) -/

theorem isErased_of_ne_nil {page : Page} (h : page ≠ []) : isErased page = false := by
  simp [isErased, h]

theorem State.beginNoteScan_eq (s : State) : s.beginNoteScan =
    if s.die 0 = .idle then s.asking (.noteScan 0 none) (.noteRead 0)
    else State.settleNote { s with control := { s.control with noteUsable := false } } none := rfl

theorem State.probeNext_cons (s : State) (d : Die) (rest : List Die) :
    s.probeNext (d :: rest) = s.asking (.probeAdded rest) (.probe d) := rfl

theorem State.scanEnded_startUp (s : State) (result : ScanResult) : s.scanEnded .startUp result =
    (s.applyAtStartUp result).probeNext (addedDies (s.applyAtStartUp result).control.installed) := rfl

theorem State.scanEnded_lineReset (s : State) (result : ScanResult) :
    s.scanEnded .lineReset result = (s.applyAtLineReset result).lineResetEnded := rfl

theorem State.beginScan_startUp (s : State) : s.beginScan .startUp =
    if s.die 0 = .idle then s.asking (.profileScan .startUp 0 none 0) (.profileRead 0) else s.scanEnded .startUp .unread := by
  unfold State.beginScan
  simp only [decide_eq_true_eq]
  rfl

theorem State.scanOn_eq (s : State) (purpose : ScanFor) (page : Nat) (best : Option (Nat × Page)) (failed : Nat) :
    s.scanOn purpose page best failed = if 127 ≤ page then s.scanEnded purpose (scanResult best failed)
      else s.asking (.profileScan purpose (page + 1) best failed) (.profileRead (page + 1)) := rfl

section Scanned

variable (s : State) (purpose : ScanFor) (page : Nat) (best : Option (Nat × Page)) (failed : Nat) {image : Page}

theorem State.profileScanned_erased :
    s.profileScanned purpose page best failed [] = s.scanEnded purpose (scanResult best failed) := rfl

theorem State.profileScanned_passed (h : image ≠ []) (ok : profilePageOk image = true) :
    s.profileScanned purpose page best failed image = s.scanOn purpose page (some (page, image)) 0 := by
  simp [State.profileScanned, isErased_of_ne_nil h, ok]

theorem State.profileScanned_failed (h : image ≠ []) (bad : profilePageOk image = false) :
    s.profileScanned purpose page best failed image = s.scanOn purpose page best (failed + 1) := by
  simp [State.profileScanned, isErased_of_ne_nil h, bad]

theorem State.noteScanned_erased : s.noteScanned page best [] =
    State.settleNote { s with control := { s.control with nextNotePage := some page } } best := rfl

theorem State.noteScanned_written (h : image ≠ []) : s.noteScanned page best image =
    if 127 ≤ page then State.settleNote { s with control := { s.control with nextNotePage := some 128 } }
      (if notePageOk image then some (page, image) else best)
    else s.asking (.noteScan (page + 1) (if notePageOk image then some (page, image) else best)) (.noteRead (page + 1)) := by
  simp only [State.noteScanned, isErased_of_ne_nil h, Bool.false_eq_true, if_false]
  rfl

end Scanned

/-! ### Results by the standing of the request (R72, R133, R148) -/

section Results

variable (s : State) (d : Die) (op : ServiceOp) (result : MediaResult) (data : Page)

theorem State.handResult_awaited :
    s.handResult d (.service { op := op, standing := .awaited }) result data = s.sequenceResult op result := rfl

theorem State.handResult_noteOnly :
    s.handResult d (.service { op := op, standing := .noteOnly }) result data = s.oldNoteWritten op result := rfl

theorem State.handResult_disregarded :
    s.handResult d (.service { op := op, standing := .disregarded }) result data = s := rfl

end Results

/-! ### Note writes (R143, R145, R148) -/

section NoteWrites

variable {s : State} {opening : Opening}

theorem State.noteWritten_failed (op : ServiceOp) (cause : FailCause) :
    s.noteWritten op (.fail cause) = { s with control := { s.control with noteUsable := false } } := rfl

theorem State.noteWritten_erased (image : Page) :
    s.noteWritten .noteErase (.pass image) = { s with control := { s.control with nextNotePage := some 0 } } := rfl

theorem State.noteWritten_opened (image : Page) : s.noteWritten .openedNote (.pass image) = s := rfl

/-- The erased block takes the OPENED note on its page 0. -/
theorem State.openOrFinish_erased (hu : s.control.noteUsable = true) :
    State.openOrFinish { s with control := { s.control with nextNotePage := some 0 } } opening =
      State.asking { s with control := { s.control with nextNotePage := some 0 } } (.openedProgram opening) .openedNote :=
  State.openOrFinish_eq (.inr ⟨0, hu, rfl, rfl⟩)

theorem State.openOrFinish_unusable (hu : s.control.noteUsable = false) : s.openOrFinish opening = s.opened opening :=
  State.openOrFinish_eq (.inl ⟨hu, rfl⟩)

/-- A stopped recovery's note write that leaves the block usable moves the note state alone. -/
theorem State.oldNoteWritten_usable {op : ServiceOp} {result : MediaResult}
    (hu : (s.noteWritten op result).control.noteUsable = true) : s.oldNoteWritten op result = s.noteWritten op result := by
  unfold State.oldNoteWritten
  dsimp only
  split
  case h_1 | h_2 => exact if_pos hu
  all_goals rfl

theorem State.oldNoteWritten_idle (hs : s.control.sequence = .none) (op : ServiceOp) (result : MediaResult) :
    s.oldNoteWritten op result = s.noteWritten op result := by
  have sequence : (s.noteWritten op result).control.sequence = .none := by simp [hs]
  simp only [State.oldNoteWritten, sequence]

/-- Under a recovery begun again, whose own note write waits, a failed note write withdraws that one (R143). -/
theorem State.oldNoteWritten_failed
    (hs : s.control.sequence = .openedErase opening ∨ s.control.sequence = .openedProgram opening) (op : ServiceOp)
    (cause : FailCause) : s.oldNoteWritten op (.fail cause) = State.opened { s with
      control := { s.control with noteUsable := false }
      media := { s.media with services := s.media.services.filter (fun r => !r.op.isNoteWrite) } } opening := by
  rw [← State.finishOpening_eq, State.oldNoteWritten, State.noteWritten_failed]
  rcases hs with hs | hs
  · simp only [hs]
    rfl
  · simp only [hs]
    rfl

end NoteWrites

/-! ### The obligation -/

/-- Settles O35: each step of the sequence by the equation of the operation its result calls. -/
theorem startUpAndScansFollowResults : Obligations.StartUpAndScansFollowResults := by
  intro s d op data done late noteScan probeRest ended outcome scanOn nextPage unusable
  have probed (t : State) (dies : List Die) : t.probeNext dies = probeRest t dies := by
    cases dies with
    | nil => exact t.beginNoteScan_eq
    | cons x rest => exact t.probeNext_cons x rest
  have scanned (purpose : ScanFor) (result : ScanResult) : s.scanEnded purpose result = ended purpose result := by
    cases purpose with
    | startUp => exact (s.scanEnded_startUp result).trans (probed _ _)
    | lineReset => exact s.scanEnded_lineReset result
  have found (best : Option (Nat × Page)) (failed : Nat) : scanResult best failed = outcome best failed := by
    cases best <;> rfl
  have goesOn (purpose : ScanFor) (page : Nat) (best : Option (Nat × Page)) (failed : Nat) :
      s.scanOn purpose page best failed = scanOn purpose page best failed := by
    rw [State.scanOn_eq, scanned, found]
  have awaited (result : MediaResult) : done result = s.sequenceResult op result := s.handResult_awaited d op result data
  have old (result : MediaResult) : late result = s.oldNoteWritten op result := s.handResult_noteOnly d op result data
  refine ⟨fun result hq => ?probeDieZero, fun purpose page best failed hq => ?profileScan, fun result rest hq => ?probeAdded,
    fun page best hq => ?noteScan, fun opening hq ho hu => ?openedErase, fun opening hq ho => ?openedProgram,
    fun result => s.handResult_disregarded d op result data, ?stopped, fun result rest hq => ?lineProbe⟩
  case probeDieZero =>
    rw [awaited, State.sequenceResult, hq]
    dsimp only
    rw [State.beginScan_startUp]
    exact ⟨fun h => if_pos h, fun h => (if_neg h).trans (scanned _ _)⟩
  case profileScan =>
    simp only [awaited, State.sequenceResult, hq]
    refine ⟨fun image he => ?_, fun image hw ok => ?_, fun image hw bad => ?_, goesOn _ _ _ _, scanned _ _, scanned _ _⟩
    · rw [he, State.profileScanned_erased, scanned, found]
    · rw [State.profileScanned_passed _ _ _ _ _ hw ok, goesOn]
    · rw [State.profileScanned_failed _ _ _ _ _ hw bad, goesOn]
  case probeAdded =>
    rw [awaited, State.sequenceResult, hq]
    exact probed s rest
  case noteScan =>
    simp only [awaited, State.sequenceResult, hq]
    refine ⟨fun image he => ?_, fun image hw => State.noteScanned_written s page best hw, fun cause => rfl⟩
    rw [he]
    exact State.noteScanned_erased s page best
  case openedErase =>
    simp only [awaited, State.sequenceResult, hq, ho]
    exact ⟨fun image => State.openOrFinish_erased hu, fun cause => State.openOrFinish_unusable rfl⟩
  case openedProgram =>
    simp only [awaited, State.sequenceResult, hq, ho, State.finishOpening_eq]
    exact ⟨fun image => rfl, fun cause => rfl⟩
  case stopped =>
    simp only [old]
    refine ⟨fun image hu ho => ?_, fun image hu ho => ?_, fun cause hq => State.oldNoteWritten_idle hq op _,
      fun cause opening hq => State.oldNoteWritten_failed hq op cause⟩
    · rw [ho]
      exact (State.oldNoteWritten_usable (op := .noteErase) (result := .pass image) hu).trans
        (State.noteWritten_erased image)
    · rw [ho]
      exact (State.oldNoteWritten_usable (op := .openedNote) (result := .pass image) hu).trans
        (State.noteWritten_opened image)
  case lineProbe =>
    rw [awaited, State.sequenceResult, hq]
    cases rest <;> rfl

end Sys2Proof.Machine
end

section
/-! SUPGOOD_FALL (07): entry to FLUSHING, a stopped start-up and a stopped recovery (R37, R55, R79, R104, R131 to R134,
R148). -/

namespace Sys2Proof.Machine

/-! ### The edge by service state (R131) -/

section SupgoodFall

variable {s : State}

theorem exec_supgoodFall_low (h : s.pins.supgood = false) : exec .supgoodFall s = .next s := by
  simp [exec, execSupgoodFall, h]

variable (h : s.pins.supgood = true)
include h

theorem exec_supgoodFall_starting (hs : s.control.state = .starting) :
    exec .supgoodFall s = .next (s.withPins { s.pins with supgood := false }).stopStartUp.settled := by
  simp [exec, execSupgoodFall, h, hs]

theorem exec_supgoodFall_serving (hs : s.control.state = .service ∨ s.control.state = .lineReset) :
    exec .supgoodFall s = .next (s.withPins { s.pins with supgood := false }).enterFlushing := by
  rcases hs with hs | hs <;> simp [exec, execSupgoodFall, h, hs]

theorem exec_supgoodFall_flushing (hs : s.control.state = .flushing) :
    exec .supgoodFall s = .next (s.withPins { s.pins with supgood := false }) := by
  simp [exec, execSupgoodFall, h, hs]

theorem exec_supgoodFall_spent (hs : s.control.state = .spent) :
    exec .supgoodFall s = .next (s.withPins { s.pins with supgood := false }).stopRecovery.settled := by
  simp [exec, execSupgoodFall, h, hs]

end SupgoodFall

/-! ### Entry to FLUSHING (R37, R55, R79, R104, R132, R134) -/

/-- The front's operation is abandoned and the status output deselected (R37). -/
theorem State.flushFront_eq (s : State) : s.flushFront = { s with
    front := { s.front with state := .idle, statusSelected := false }
    queue := s.queueReleased
    media := s.mediaReleased
    report := s.reportReleased } := by
  obtain ⟨tick, pins, ⟨state, fail, refused, posted, counters, selected, out⟩, queue, media, drop, gauge, control, report,
    free, pending⟩ := s
  cases state <;> rfl

theorem State.queueReleased_detach (s : State) :
    s.queueReleased.detach = { s.queueReleased with entries := s.queue.entries.map detachEntry } := by
  rw [HoldQueue.detach, s.queueReleased_entries]

/-- Every block at entry to FLUSHING, before the consequences. -/
theorem State.enterFlushing_eq (s : State) : s.enterFlushing = State.settled { s with
    control := { s.control with
      state := .flushing, sequence := .drain, budget := s.entryBudget, counts := ⟨0, 0, 0⟩, flushNote := none
      dipStart := s.tick }
    front := { s.front with state := .idle, statusSelected := false }
    queue := { s.queueReleased with entries := s.queue.entries.map detachEntry }
    media := s.mediaReleased.restand .disregarded
    report := s.reportReleased
    drop := s.drop.markDip } := by
  rw [← s.queueReleased_detach, State.enterFlushing, State.flushFront_eq]
  rfl

/-! ### Requests that are no longer awaited (R132, R133, R148) -/

theorem ServiceOp.isNoteWrite_iff (op : ServiceOp) :
    op.isNoteWrite = true ↔ op = .noteErase ∨ op = .openedNote ∨ ∃ image, op = .flushNote image := by
  cases op <;> simp [ServiceOp.isNoteWrite]

theorem ServiceRequest.restand_op (standing : Standing) (r : ServiceRequest) : (r.restand standing).op = r.op := by
  rw [ServiceRequest.restand_eq]
  split <;> rfl

/-- What waits once note writes are withdrawn and the rest takes another standing: each is a request that waited before. -/
theorem Scheduler.mem_withdrawn {m : Scheduler} {standing : Standing} {r : ServiceRequest}
    (h : r ∈ (m.withdrawNotes.restand standing).services) :
    ∃ q ∈ m.services, q.op.isNoteWrite = false ∧ r.op = q.op ∧
      r.standing = if q.standing = .awaited then standing else q.standing := by
  obtain ⟨q, hq, rfl⟩ := List.mem_map.1 h
  obtain ⟨hq, hw⟩ := List.mem_filter.1 hq
  refine ⟨q, hq, by simpa using hw, q.restand_op standing, ?_⟩
  rw [ServiceRequest.restand_eq]
  split <;> rfl

theorem Scheduler.restand_spec (m : Scheduler) (standing : Standing) :
    ∃ dies, m.restand standing = { m with services := m.services.map (ServiceRequest.restand standing), dies := dies } ∧
      ∀ d : Die, (dies.get d).patience = (m.dies.get d).patience ∧
        (∀ op r, (m.dies.get d).state = .busy op → op.requester = .service r →
          (dies.get d).state = .busy { op with requester := .service (r.restand standing) }) ∧
        ((∀ op r, (m.dies.get d).state = .busy op → op.requester ≠ .service r) →
          (dies.get d).state = (m.dies.get d).state) := by
  refine ⟨m.dies.map (DieRecord.restand standing), rfl, fun d => ?_⟩
  rw [PerDie.get_map]
  exact DieRecord.restand_spec standing (m.dies.get d)

/-! ### The hold's end (R111) -/

theorem State.batteryEdge_holding (s : State) (edge : HeldEdge) :
    (s.batteryEdge edge).gauge.holding = s.gauge.holding := by
  cases edge with
  | chgdone =>
    simp only [State.batteryEdge]
    split <;> rfl
  | pkempty =>
    simp only [State.batteryEdge]
    split
    · split <;> rfl
    · rfl
  | pkpresFall => rfl
  | pkpresRise => rfl

theorem State.endGaugeHold_holding (s : State) : s.endGaugeHold.gauge.holding = false := by
  have kept (edges : List HeldEdge) (u : State) (hu : u.gauge.holding = false) :
      (edges.foldl State.batteryEdge u).gauge.holding = false := by
    induction edges generalizing u with
    | nil => exact hu
    | cons edge edges ih => exact ih _ ((u.batteryEdge_holding edge).trans hu)
  cases h : s.gauge.holding with
  | false => rw [State.endGaugeHold_released h, h]
  | true =>
    rw [State.endGaugeHold_held h]
    exact kept _ _ rfl

/-! ### Start-up stops, a recovery stops (R133, R148) -/

/-- Start-up stopped with the supply low, with the state as the end of the gauge's hold leaves it. -/
theorem State.stopStartUp_low {s held : State} (hp : s.pins.supgood = false)
    (hheld : held = State.endGaugeHold { s with
      media := s.media.withdrawNotes.restand .disregarded
      control := { s.control with
        noteUsable := s.control.noteUsable && s.control.nextNotePage.isSome, dipStart := s.tick } }) :
    s.stopStartUp = { held with
      control := { s.control with
        state := .spent, sequence := .none
        noteUsable := s.control.noteUsable && s.control.nextNotePage.isSome, dipStart := s.tick } } := by
  have pins : held.pins.supgood = false := by simpa [hheld] using hp
  have control : held.control = { s.control with
      noteUsable := s.control.noteUsable && s.control.nextNotePage.isSome, dipStart := s.tick } := by simp [hheld]
  have stopped : s.stopStartUp = held.enterSpent := by rw [hheld]; rfl
  rw [stopped, State.enterSpent_low pins, State.withServiceState, State.withSequence, control]
  rfl

/-! ### The consequences in SPENT with no sequence

The manual's laws of the queue are not needed for what every state in SPENT keeps: a commit that fails leaves the gauge and
the note state too. -/

/-- No sequence runs in SPENT and no result that waits moves one; the gauge and the dip start are as in `x`, and the note
block is usable only where it is in `x`. -/
structure State.SpentAs (x t : State) : Prop where
  state : t.control.state = .spent
  sequence : t.control.sequence = .none
  gauge : t.gauge = x.gauge
  dipStart : t.control.dipStart = x.control.dipStart
  usable : t.control.noteUsable = true → x.control.noteUsable = true
  services : ∀ r ∈ t.media.services, r.standing ≠ .awaited ∧ r.op.isNoteWrite = false

namespace State.SpentAs

variable {x s : State} (h : x.SpentAs s)
include h

theorem withMedia (m : Scheduler) (hm : ∀ r ∈ m.services, r ∈ s.media.services) : x.SpentAs (s.withMedia m) :=
  { h with services := fun r hr => h.services r (hm r hr) }

theorem takeRequest (r : ServiceRequest) : x.SpentAs (s.takeRequest r) :=
  h.withMedia _ fun _ => List.mem_of_mem_erase

theorem countFailure : x.SpentAs s.countFailure := h.withMedia _ fun _ hr => hr

theorem frontReadDone (base : Page) (failed : Bool) : x.SpentAs (s.frontReadDone base failed) := by
  obtain ⟨-, -, -, media, -, gauge, control, -⟩ := s.frontReadDone_frame base failed
  obtain ⟨h1, h2, h3, h4, h5, h6⟩ := h
  constructor <;> simpa only [media, gauge, control]

theorem startService {r : ServiceRequest} (hr : r ∈ s.media.services) (d : Die) : x.SpentAs (s.startService d r) := by
  obtain ⟨m, hm, hs⟩ := s.startService_media d (h.services r hr).2
  rw [hm]
  exact h.withMedia m fun q hq => List.mem_of_mem_erase (hs ▸ hq)

theorem startCommit (d : Die) (e : Entry) : x.SpentAs (s.startCommit d e) where
  state := by simp [h.state]
  sequence := by simp [h.sequence]
  gauge := by simp [h.gauge]
  dipStart := by simp [h.dipStart]
  usable := by simpa using h.usable
  services := by simpa [State.startCommit, State.startMedia] using h.services

/-- A commit that fails tells neither the gauge nor the note state. -/
theorem commitDone (d : Die) (cause : FailCause) : x.SpentAs (s.commitDone d (.fail cause)) := by
  obtain ⟨-, -, media, -⟩ := s.commitDone_frame d (.fail cause)
  have gauge : (s.commitDone d (.fail cause)).gauge = s.gauge := by
    unfold State.commitDone
    split
    · rfl
    · simp
  exact
    { state := by simp [h.state]
      sequence := by simp [h.sequence]
      gauge := gauge.trans h.gauge
      dipStart := by simp [h.dipStart]
      usable := by simpa using h.usable
      services := media ▸ h.services }

/-- A result that is not awaited can only make the note block unusable. -/
theorem serviceDone {r : ServiceRequest} (ha : r.standing ≠ .awaited) (hw : r.op.isNoteWrite = false)
    (result : MediaResult) : x.SpentAs (s.serviceDone r result) := by
  cases hr : r.standing with
  | awaited => exact absurd hr ha
  | disregarded => rwa [State.serviceDone_disregarded _ hr]
  | noteOnly =>
    have done : s.serviceDone r result = s.noteWritten r.op result := by
      rw [State.serviceDone, hr]
      exact State.oldNoteWritten_idle h.sequence _ _
    rw [done]
    cases result with
    | fail cause => exact { h with usable := nofun }
    | pass data =>
      cases ho : r.op with
      | probe | profileRead | noteRead => exact h
      | noteErase | openedNote | flushNote => rw [ho] at hw; cases hw

theorem settled : x.SpentAs s.settled := by
  refine State.settled_keeps ?_ (fun s h => h.withMedia _ fun _ hr => hr) s h
  refine State.micro_keeps (fun s n h => { h with }) ?service ?front ?commit ?probe ?pass ?fail ?failFront ?failCommit ?scan
    ?drain
  case service => exact fun s d r h _ hr _ _ _ => h.startService hr d
  case probe => exact fun s r h hr _ _ => h.startService hr _
  case front =>
    intro s d row contested h _ _ _ _
    cases contested
    · exact h.withMedia _ fun _ hr => hr
    · exact h.withMedia _ fun _ hr => hr
  case commit => exact fun s d e h _ _ _ => h.startCommit d e
  case pass => exact fun s r h hr _ _ => (h.takeRequest r).serviceDone (h.services r hr).1 (h.services r hr).2 _
  case fail =>
    exact fun s r h hr _ _ => (h.takeRequest r).countFailure.serviceDone (h.services r hr).1 (h.services r hr).2 _
  case failFront =>
    exact fun s d row h _ _ _ =>
      (h.withMedia { s.media with frontRead := none } fun _ hr => hr).countFailure.frontReadDone _ _
  case failCommit => exact fun s d e h _ _ => h.countFailure.commitDone d _
  case scan => exact fun s h hs _ => nomatch h.sequence.symm.trans hs
  case drain => exact fun s h hs _ => nomatch h.sequence.symm.trans hs

end State.SpentAs

/-! ### What a stop leaves before its consequences -/

section Stops

variable {s : State}

theorem State.stopStartUp_blocks (hp : s.pins.supgood = false) :
    s.stopStartUp.control = { s.control with
      state := .spent, sequence := .none
      noteUsable := s.control.noteUsable && s.control.nextNotePage.isSome, dipStart := s.tick } ∧
    s.stopStartUp.media = s.media.withdrawNotes.restand .disregarded ∧
    s.stopStartUp.queue = s.queue ∧ s.stopStartUp.drop = s.drop ∧ s.stopStartUp.gauge.holding = false := by
  rw [State.stopStartUp_low hp rfl]
  exact ⟨rfl, by simp, by simp, by simp, State.endGaugeHold_holding _⟩

theorem State.spentAs_of_withdrawn {standing : Standing} {t : State} (ha : standing ≠ .awaited)
    (hs : t.control.state = .spent) (hq : t.control.sequence = .none)
    (hm : t.media = s.media.withdrawNotes.restand standing) : t.SpentAs t where
  state := hs
  sequence := hq
  gauge := rfl
  dipStart := rfl
  usable := id
  services r hr := by
    obtain ⟨q, -, hw, ho, hst⟩ := Scheduler.mem_withdrawn (hm ▸ hr)
    refine ⟨?_, by rw [ho, hw]⟩
    rw [hst]
    split
    · exact ha
    · assumption

/-- With an empty queue, and a stopped recovery's note writes the only requests left of it, nothing but dies and requests
moves. -/
theorem State.stoppedAs_of_withdrawn {standing : Standing} {t : State} (hq : t.control.sequence = .none)
    (he : t.queue.entries = []) (hm : t.media = s.media.withdrawNotes.restand standing)
    (hn : ∀ r ∈ s.media.services, r.standing = .noteOnly → r.op.isNoteWrite = true)
    (ha : standing = .disregarded ∨ ∀ r ∈ s.media.services, r.standing = .awaited → r.op.isNoteWrite = true) :
    t.StoppedAs t where
  control := rfl
  queue := rfl
  drop := rfl
  gauge := rfl
  report := rfl
  sequence := hq
  entries := he
  services r hr := by
    obtain ⟨q, hmem, hw, ho, hst⟩ := Scheduler.mem_withdrawn (hm ▸ hr)
    refine ⟨?_, by rw [ho, hw]⟩
    cases hk : q.standing with
    | awaited =>
      rcases ha with rfl | ha
      · rw [hst, if_pos hk]
      · cases hw.symm.trans (ha q hmem hk)
    | noteOnly => cases hw.symm.trans (hn q hmem hk)
    | disregarded => rw [hst, hk]; rfl

/-- What a dip recovery awaits is a note write (R145). -/
theorem State.SequenceLaw.awaits_noteWrite (h : s.SequenceLaw) (hs : s.control.state = .spent) {r : ServiceRequest}
    (hr : r ∈ s.media.services) (ha : r.standing = .awaited) : r.op.isNoteWrite = true := by
  have awaits := h.awaited r (List.mem_append_left _ hr) ha
  have stands := h.stands
  rw [hs] at stands
  cases hq : s.control.sequence with
  | none => rw [hq] at awaits; exact awaits.elim
  | openedErase => rw [hq] at awaits; rw [show r.op = .noteErase from awaits]; rfl
  | openedProgram => rw [hq] at awaits; rw [show r.op = .openedNote from awaits]; rfl
  | profileScan purpose => rw [hq] at stands; cases purpose <;> cases stands
  | _ => rw [hq] at stands; cases stands

theorem State.spentAs_stopStartUp (hp : s.pins.supgood = false) : s.stopStartUp.SpentAs s.stopStartUp := by
  obtain ⟨control, media, -⟩ := State.stopStartUp_blocks hp
  exact State.spentAs_of_withdrawn (by decide) (by rw [control]) (by rw [control]) media

theorem State.spentAs_stopRecovery (hs : s.control.state = .spent) : s.stopRecovery.SpentAs s.stopRecovery :=
  State.spentAs_of_withdrawn (standing := .noteOnly) (by decide) hs rfl rfl

theorem State.stoppedAs_stopStartUp (hp : s.pins.supgood = false) (he : s.queue.entries = [])
    (hn : ∀ r ∈ s.media.services, r.standing = .noteOnly → r.op.isNoteWrite = true) :
    s.stopStartUp.StoppedAs s.stopStartUp := by
  obtain ⟨control, media, queue, -⟩ := State.stopStartUp_blocks hp
  exact State.stoppedAs_of_withdrawn (by rw [control]) (by rw [queue, he]) media hn (.inl rfl)

theorem State.stoppedAs_stopRecovery (he : s.queue.entries = [])
    (hn : ∀ r ∈ s.media.services, r.standing = .noteOnly → r.op.isNoteWrite = true)
    (ha : ∀ r ∈ s.media.services, r.standing = .awaited → r.op.isNoteWrite = true) :
    s.stopRecovery.StoppedAs s.stopRecovery :=
  State.stoppedAs_of_withdrawn (standing := .noteOnly) rfl he rfl hn (.inr ha)

end Stops

/-! ### A fall in STARTING and in SPENT -/

theorem exec_supgoodFall_stops {s : State} (hp : s.pins.supgood = true)
    (hs : s.control.state = .starting ∨ s.control.state = .spent) :
    ∃ t, exec .supgoodFall s = .next t ∧ t.pins = { s.pins with supgood := false } ∧ t.tick = s.tick ∧
      t.pending = s.pending ∧ t.control.state = .spent ∧ t.control.sequence = .none ∧
      ∀ r ∈ t.media.services, r.op.isNoteWrite = false := by
  rcases hs with hs | hs
  · have t := (State.spentAs_stopStartUp (s := s.withPins { s.pins with supgood := false }) rfl).settled
    exact ⟨_, exec_supgoodFall_starting hp hs, by simp, by simp, by simp, t.state, t.sequence,
      fun r hr => (t.services r hr).2⟩
  · have t := (State.spentAs_stopRecovery (s := s.withPins { s.pins with supgood := false }) hs).settled
    exact ⟨_, exec_supgoodFall_spent hp hs, by simp, by simp, by simp, t.state, t.sequence,
      fun r hr => (t.services r hr).2⟩

/-- The note block stays usable only where it was and the scan had found the next note page (R133). -/
theorem exec_supgoodFall_endsHold {s : State} (hp : s.pins.supgood = true) (hs : s.control.state = .starting) :
    ∃ t, exec .supgoodFall s = .next t ∧ t.control.dipStart = s.tick ∧ t.gauge.holding = false ∧
      (t.control.noteUsable = true → s.control.noteUsable = true ∧ s.control.nextNotePage ≠ none) := by
  have low : (s.withPins { s.pins with supgood := false }).pins.supgood = false := rfl
  have t := (State.spentAs_stopStartUp low).settled
  obtain ⟨control, -, -, -, hold⟩ := State.stopStartUp_blocks low
  refine ⟨_, exec_supgoodFall_starting hp hs, by rw [t.dipStart, control]; rfl, by rw [t.gauge, hold], fun hu => ?_⟩
  have was := t.usable hu
  rw [control] at was
  simpa [Option.isSome_iff_ne_none] using was

/-! ### The obligation -/

/-- Settles O39. -/
theorem supplyFallActs : Obligations.SupplyFallActs := by
  refine ⟨⟨fun s => exec_supgoodFall_low, fun s hp => ?edge⟩, fun s hp hlaw => ?stops, ServiceOp.isNoteWrite_iff,
    Scheduler.writesInProgress_eq, fun m standing => ?restands⟩
  case edge =>
    refine ⟨fun hs => exec_supgoodFall_flushing hp hs, fun hs => ?_⟩
    rw [exec_supgoodFall_serving hp hs, State.enterFlushing_eq]
    rfl
  case restands =>
    intro marked
    rw [show marked = ServiceRequest.restand standing from (funext (ServiceRequest.restand_eq standing)).symm]
    exact m.restand_spec standing
  case stops =>
    refine ⟨exec_supgoodFall_stops hp, exec_supgoodFall_endsHold hp, ?_⟩
    intro pins kept usable held
    have low : (s.withPins pins).pins.supgood = false := rfl
    have started := exec_supgoodFall_starting hp
    have recovering := exec_supgoodFall_spent hp
    have blocks : (s.withPins pins).stopStartUp = { held with
        control := { s.control with
          state := .spent, sequence := .none, noteUsable := usable, dipStart := s.tick } } :=
      State.stopStartUp_low low rfl
    refine ⟨fun hs => (started hs).trans (by rw [← blocks]), recovering, fun law hn => ⟨fun hs => ?startUpLeaves,
      fun hs => ?recoveryLeaves⟩⟩
    case startUpLeaves =>
      have t := (State.stoppedAs_stopStartUp low (law.empty (.inl hs)) hn).settled
      obtain ⟨control, -, queue, drop, -⟩ := State.stopStartUp_blocks low
      exact ⟨_, started hs, t.control.trans control, t.queue.trans queue, t.drop.trans drop,
        t.gauge.trans (by rw [blocks]), t.report.trans (by rw [blocks])⟩
    case recoveryLeaves =>
      have t := (State.stoppedAs_stopRecovery (s := s.withPins pins) (law.empty (.inr hs)) hn
        fun _ => hlaw.awaits_noteWrite hs).settled
      exact ⟨_, recovering hs, t.control, t.queue, t.drop, t.gauge, t.report⟩

end Sys2Proof.Machine
end

section
/-! SUPGOOD_RISE (07): the steps of a dip recovery at that event (R104, R131, R144, R145, R149). -/

namespace Sys2Proof.Machine

/-! ### The edge (R131, R144) -/

section SupgoodRise

variable {s : State}

theorem exec_supgoodRise_high (h : s.pins.supgood = true) : exec .supgoodRise s = .next s := by
  simp [exec, execSupgoodRise, h]

theorem exec_supgoodRise_spent (h : s.pins.supgood = false) (hs : s.control.state = .spent) :
    exec .supgoodRise s = .next (s.withPins { s.pins with supgood := true }).beginRecovery.settled := by
  simp [exec, execSupgoodRise, h, hs]

theorem exec_supgoodRise_elsewhere (h : s.pins.supgood = false) (hs : s.control.state ≠ .spent) :
    exec .supgoodRise s = .next (s.withPins { s.pins with supgood := true }) := by
  cases hc : s.control.state with
  | spent => exact absurd hc hs
  | _ => simp [exec, execSupgoodRise, h, hc]

end SupgoodRise

/-! ### Step 1: the counters (R103, R145, R153) -/

theorem DropMonitor.load_zero (d : DropMonitor) : d.load 0 = { d with loaded := true } := by
  simp [DropMonitor.load]

theorem ReportMemory.load_zero (r : ReportMemory) : r.load 0 = { r with loaded := true } := by
  simp [ReportMemory.load]

theorem State.recoverCounters_loaded {s : State} (h : s.drop.loaded = true) : s.recoverCounters = s := if_pos h

/-- Base 0 moves no number. -/
theorem State.recoverCounters_unloaded {s : State} (h : s.drop.loaded = false) :
    s.recoverCounters = State.reportDrops { s with
      drop := { s.drop with loaded := true }, report := { s.report with loaded := true } } := by
  rw [State.recoverCounters, if_neg (by simp [h]), State.loadCounters, DropMonitor.load_zero, ReportMemory.load_zero]
  rfl

theorem ReportMemory.append_masked (r : ReportMemory) (mask : BitVec 16) (stamp : Tick) (payload : Payload) :
    (r.append mask stamp payload).masked = r.masked := by
  have room : r.makeRoom.masked = r.masked := by
    unfold ReportMemory.makeRoom
    split
    · rfl
    · split <;> rfl
  exact room

theorem passReady_masked (mask : BitVec 16) (stamp : Tick) (drops : List Drop) (r : ReportMemory) :
    (passReady mask stamp drops r).2.masked = r.masked := by
  induction drops generalizing r with
  | nil => rfl
  | cons x rest ih =>
    unfold passReady
    split
    · rfl
    · rw [ih, ReportMemory.append_masked]

theorem State.reportDrops_masked (s : State) : s.reportDrops.report.masked = s.report.masked := by
  unfold State.reportDrops
  split
  · exact passReady_masked _ _ _ _
  · rfl

theorem State.recoverCounters_keeps (s : State) : s.recoverCounters.tick = s.tick ∧
    s.recoverCounters.gauge = s.gauge ∧ s.recoverCounters.report.masked = s.report.masked := by
  cases h : s.drop.loaded with
  | true => rw [State.recoverCounters_loaded h]; exact ⟨rfl, rfl, rfl⟩
  | false =>
    rw [State.recoverCounters_unloaded h]
    exact ⟨by simp, by simp, State.reportDrops_masked _⟩

/-! ### Step 2: the defaults (R123, R145, R149) -/

/-- With the default nominal in force and no tallies, the defaults bring the weight and the first temperature alone. -/
theorem Gauge.recoveryApply_defaults {g : Gauge} (hn : g.nominalCu = 108800000) (ht : g.tallying = false) :
    g.recoveryApply defaultSettings = { g with
      weight := 1600, temperature := if g.firstReading then g.temperature else -20 } := by
  have nominal : defaultSettings.nominal * 16000 = g.nominalCu := by rw [hn]; rfl
  have kept : g.changeNominal defaultSettings.nominal = g := if_pos nominal
  have untallied : Gauge.convertTallies { g with weight := 1600 } = { g with weight := 1600 } := if_neg (by simp [ht])
  have weight : defaultSettings.weight = 1600 := rfl
  rw [Gauge.recoveryApply, kept, weight, untallied, Gauge.followTable]
  cases hf : g.firstReading <;> rfl

/-- The default windows settle against themselves with one die installed (R4, R5). -/
theorem settleWindows_defaults : settleWindows 1 defaultWindows defaultWindows [] = (defaultWindows, []) := by decide

theorem State.putLive_defaults {s : State} (hi : s.control.installed = 1)
    (hw : s.control.settings.windows = defaultWindows) :
    s.putLive defaultSettings = (s.withControl { s.control with settings := defaultSettings }, []) := by
  have windows : defaultSettings.windows = defaultWindows := rfl
  rw [State.putLive, hi, hw, windows, settleWindows_defaults]
  rfl

theorem State.recoverSettings_applied {s : State} (h : s.report.masked = false) : s.recoverSettings = s := if_neg (by simp [h])

theorem State.recoverSettings_defaults {s : State} (h : s.report.masked = true) (hn : s.gauge.nominalCu = 108800000)
    (ht : s.gauge.tallying = false) : s.recoverSettings = { s with
      control := { s.control with
        installed := 1, rres := 40, startUpPending := false, profilePage := none, settings := defaultSettings }
      gauge := { s.gauge with
        weight := 1600, temperature := if s.gauge.firstReading then s.gauge.temperature else -20 }
      report := { s.report with
        masked := false, attn := s.report.ring.any (fun x => (0x00B9#16).getLsbD x.payload.code) } } := by
  have live : defaultProfile.live = defaultSettings := rfl
  rw [State.recoverSettings, if_pos h, State.recoveryApply, Gauge.recoveryApply_defaults hn ht, State.wholeApply]
  dsimp only
  rw [live, State.putLive_defaults rfl rfl]
  rfl

/-! ### Step 3: the drops (R91, R100, R104) -/

theorem State.recoverDrops_calm {s : State} (h : s.drop.state = .calm) : s.recoverDrops = State.reportDrops { s with
    drop := { s.drop with pending := s.drop.pending.map (fun x => { x with powerDip := true }) } } := by
  have calm : ¬ s.drop.markDip.hold = true := by simp [DropMonitor.hold, DropMonitor.markDip, h]
  rw [State.recoverDrops]
  dsimp only
  rw [if_neg calm]
  rfl

theorem State.recoverDrops_open {s : State} {older : List Drop} {x y : Drop} (h : s.drop.state ≠ .calm)
    (hp : s.drop.pending.map (fun x => { x with powerDip := true }) = older ++ [x])
    (hc : x.ClosesTo s.drop.openOnset s.drop.impactStart s.tick false y) :
    s.recoverDrops = State.reportDrops { s with
      drop := { s.drop with
        state := .calm, mergeTimer := .stopped, settleTimer := .stopped, ceilingTimer := .stopped
        openOnset := none, impactStart := none, pending := older ++ [y] } } := by
  have held : s.drop.markDip.hold = true := by simp [DropMonitor.hold, DropMonitor.markDip, h]
  rw [State.recoverDrops]
  dsimp only
  rw [if_pos held, DropMonitor.close_eq (d := s.drop.markDip) hp hc]
  rfl

/-! ### The obligation -/

/-- Settles O40, one step of the recovery after another. -/
theorem supplyRiseBeginsTheRecovery : Obligations.SupplyRiseBeginsTheRecovery := by
  refine ⟨fun s => exec_supgoodRise_high, fun s hp => ⟨exec_supgoodRise_elsewhere hp, exec_supgoodRise_spent hp⟩, ?_⟩
  intro s loaded applied closed t dipped hloaded happlied hdipped hclosed hopens
  have step1 : s.recoverCounters = loaded := by
    rcases hloaded with ⟨h, rfl⟩ | ⟨h, rfl⟩
    · exact State.recoverCounters_loaded h
    · exact State.recoverCounters_unloaded h
  obtain ⟨tick, gauge, masked⟩ := s.recoverCounters_keeps
  rw [step1] at tick gauge masked
  have step2 : loaded.recoverSettings = applied := by
    rcases happlied with ⟨h, rfl⟩ | ⟨h, hn, ht, rfl⟩
    · exact State.recoverSettings_applied (masked.trans h)
    · exact State.recoverSettings_defaults (masked.trans h) (gauge ▸ hn) (gauge ▸ ht)
  have tick2 : applied.tick = s.tick := by rw [← step2, ← tick]; simp
  have step3 : applied.recoverDrops = closed := by
    subst hdipped
    rcases hclosed with ⟨h, rfl⟩ | ⟨older, x, y, h, hp, hc, rfl⟩
    · exact State.recoverDrops_calm h
    · exact State.recoverDrops_open h hp (tick2 ▸ hc)
  rw [State.beginRecovery, step1, step2, step3]
  exact State.openOrFinish_eq hopens

end Sys2Proof.Machine
end

section
/-! Note pages (10_formats.md 10.4): the columns of a FLUSH note and of an OPENED note, and what a note reads back as (R142,
R146, R171, R186, R188). -/

namespace Sys2Proof.Machine

/-! ### Fields of a list of bytes in parts -/

theorem bytesField_one (bytes : List Byte) (c : Nat) : bytesField bytes c 1 = (bytes.getD c 0#8).toNat := by
  simp [bytesField]

/-- A number that fits its bytes reads back, whatever follows it. -/
theorem bytesField_leBytes_append {n v : Nat} (h : v < 256 ^ n) (rest : List Byte) :
    bytesField (leBytes n v ++ rest) 0 n = v := by
  rw [bytesField_append_left _ _ _ _ (by simp), bytesField_leBytes, Nat.mod_eq_of_lt h]

theorem bytesField_tick_append (t : Tick) (rest : List Byte) : bytesField (leBytes 4 t.toNat ++ rest) 0 4 = t.toNat :=
  bytesField_leBytes_append t.isLt rest

theorem bytesField_cons (b : Byte) (bytes : List Byte) (c n : Nat) :
    bytesField (b :: bytes) (c + 1) n = bytesField bytes c n := by
  have skipped := bytesField_append_right [b] bytes (c + 1) n (by simp)
  simpa using skipped

theorem bytesField_zeros (m c n : Nat) : bytesField (List.replicate m 0#8) c n = 0 := by
  induction n generalizing c with
  | zero => rfl
  | succ n ih =>
    have zero : (List.replicate m 0#8).getD c 0#8 = 0#8 := by
      rw [List.getD_eq_getElem?_getD, List.getElem?_replicate]
      split <;> rfl
    rw [bytesField, ih, zero]
    rfl

/-- A field within the i-th of parts of one width. -/
theorem bytesField_flatMap_part {α : Type} {f : α → List Byte} {w : Nat} (hw : ∀ a, (f a).length = w) {l : List α}
    {i : Nat} {a : α} (h : l[i]? = some a) {c n : Nat} (hc : c + n ≤ w) (rest : List Byte) :
    bytesField (l.flatMap f ++ rest) (w * i + c) n = bytesField (f a) c n := by
  induction l generalizing i with
  | nil => simp at h
  | cons b l ih =>
    rw [List.flatMap_cons, List.append_assoc]
    cases i with
    | zero =>
      obtain rfl : b = a := by simpa using h
      rw [bytesField_append_left _ _ _ _ (by simp [hw, hc])]
      simp
    | succ i =>
      rw [bytesField_append_right _ _ _ _ (by rw [hw, Nat.mul_succ]; omega), hw, Nat.mul_succ,
        show w * i + w + c - w = w * i + c by omega]
      exact ih (by simpa using h)

/-- The bits below the unused ones are those of the value packed. -/
theorem packed_getLsbD (site : UnusedSite) {unused : Byte} {i : Nat} (h : unused.getLsbD i = false) (value : Nat) :
    (packed site unused value).getLsbD i = (BitVec.ofNat 8 value).getLsbD i := by
  simp [packed, h]

/-! ### A sealed note (R186, 10.4) -/

theorem sumWords_succ (page : Page) (c n : Nat) :
    sumWords page c (n + 1) = sumWords page c n + readField page (c + 2 * n) 2 := by
  rw [sumWords_eq, sumWords_eq, List.range_succ, readField_two]
  simp

theorem sumWords_congr {p q : Page} {c n : Nat} (h : ∀ i, i < n → readField p (c + 2 * i) 2 = readField q (c + 2 * i) 2) :
    sumWords p c n = sumWords q c n := by
  induction n with
  | zero => rfl
  | succ n ih => rw [sumWords_succ, sumWords_succ, ih fun i hi => h i (by omega), h n (by omega)]

section Sealed

variable {bytes : List Byte} (h : bytes.length = 96)
include h

theorem readField_unsealed {c n : Nat} (hc : c + n ≤ 96) : readField (writeBytes [] 0 bytes) c n = bytesField bytes c n :=
  readField_writeBytes Page.canonical_nil 0 bytes (by omega) (Nat.zero_le c) (by omega)

theorem readCell_sealNote {c : Nat} (hc : c < 96) : readCell (sealNote bytes) c = bytes.getD c 0#8 := by
  have inside : c < bytes.length := by omega
  rw [sealNote, readCell_writeBytes (Page.canonical_nil.writeBytes 0 bytes) 96 _ (by simp), dif_neg (by omega),
    readCell_writeBytes Page.canonical_nil 0 bytes (by omega), dif_pos (by omega)]
  simp [inside]

theorem readCell_sealNote_blank {c : Nat} (hc : 98 ≤ c) : readCell (sealNote bytes) c = 0xFF#8 := by
  rw [sealNote, readCell_writeBytes (Page.canonical_nil.writeBytes 0 bytes) 96 _ (by simp),
    dif_neg (by rw [leBytes_length]; omega), readCell_writeBytes Page.canonical_nil 0 bytes (by omega), dif_neg (by omega)]
  rfl

theorem readField_sealNote {c n : Nat} (hc : c + n ≤ 96) : readField (sealNote bytes) c n = bytesField bytes c n := by
  induction n generalizing c with
  | zero => rfl
  | succ n ih => rw [readField, bytesField, readCell_sealNote h (by omega), ih (by omega)]

/-- The check word completes the sum of the first 48 words to 0. -/
theorem wordSum_sealNote : wordSum (sealNote bytes) 49 = 0 := by
  have first : sumWords (sealNote bytes) 0 48 = sumWords (writeBytes [] 0 bytes) 0 48 :=
    sumWords_congr fun i hi => (readField_sealNote h (by omega)).trans (readField_unsealed h (by omega)).symm
  have last : readField (sealNote bytes) 96 2 = checkWord (writeBytes [] 0 bytes) 48 := by
    rw [sealNote, readField_writeBytes (Page.canonical_nil.writeBytes 0 bytes) 96 _ (by simp) le_rfl (by simp), Nat.sub_self,
      bytesField_leBytes, Nat.mod_eq_of_lt (show checkWord _ 48 < 256 ^ 2 from Nat.mod_lt _ (by decide))]
  rw [wordSum, sumWords_succ, first, last, checkWord, wordSum]
  omega

end Sealed

/-! ### The header of both notes: columns 0 to 15 -/

/-- The tag, the kind, the flags and the three numbers that both notes begin with. -/
def noteHeader (kind flags : Byte) (stamp dropCounter sequence : Tick) : List Byte :=
  leBytes 2 noteTag ++ ([kind, flags] ++ (leBytes 4 stamp.toNat ++ (leBytes 4 dropCounter.toNat ++ leBytes 4 sequence.toNat)))

section Header

variable {kind flags : Byte} {stamp dropCounter sequence : Tick} {rest : List Byte} {page : Page}

@[simp] theorem noteHeader_length : (noteHeader kind flags stamp dropCounter sequence).length = 16 := by simp [noteHeader]

theorem noteHeader_fields (hp : page = sealNote (noteHeader kind flags stamp dropCounter sequence ++ rest))
    (h : rest.length = 80) :
    readField page 0 2 = 0xB35C ∧ readField page 2 1 = kind.toNat ∧ readCell page 3 = flags ∧
      readField page 4 4 = stamp.toNat ∧ readField page 8 4 = dropCounter.toNat ∧
      readField page 12 4 = sequence.toNat := by
  have length : (noteHeader kind flags stamp dropCounter sequence ++ rest).length = 96 := by simp [h]
  subst hp
  refine ⟨?_, ?_, ?_, ?_, ?_, ?_⟩
  · rw [readField_sealNote length (by decide), noteHeader, List.append_assoc]
    exact bytesField_leBytes_append (by decide) _
  · rw [readField_sealNote length (by decide)]
    simp [noteHeader, bytesField_one]
  · rw [readCell_sealNote length (by decide)]
    simp [noteHeader, List.getElem?_append_right]
  all_goals
    rw [readField_sealNote length (by decide)]
    simp [noteHeader, bytesField_append_right, bytesField_cons, bytesField_tick_append]

theorem notePageOk_sealNote (hp : page = sealNote (noteHeader kind flags stamp dropCounter sequence ++ rest))
    (h : rest.length = 80) (hk : kind.toNat = 1 ∨ kind.toNat = 2) : notePageOk page = true := by
  obtain ⟨tag, isKind, -⟩ := noteHeader_fields hp h
  rw [notePageOk, tag, isKind, hp, wordSum_sealNote (by simp [h])]
  rcases hk with hk | hk <;> rw [hk] <;> rfl

end Header

theorem noteDropCounter_eq {page : Page} {t : Tick} (h : readField page 8 4 = t.toNat) : noteDropCounter page = t := by
  rw [noteDropCounter, h, BitVec.ofNat_toNat, BitVec.setWidth_eq]

theorem noteSequence_eq {page : Page} {t : Tick} (h : readField page 12 4 = t.toNat) : noteSequence page = t := by
  rw [noteSequence, h, BitVec.ofNat_toNat, BitVec.setWidth_eq]

/-! ### The OPENED note (R146) -/

theorem openedNote_eq (stamp dropCounter sequence : Tick) : openedNote stamp dropCounter sequence =
    sealNote (noteHeader 0x01#8 0x00#8 stamp dropCounter sequence ++ List.replicate 80 0#8) := by
  simp [openedNote, noteHeader]

theorem openedNote_zeros (stamp dropCounter sequence : Tick) {c : Nat} (h : 16 ≤ c) (hc : c < 96) :
    readCell (openedNote stamp dropCounter sequence) c = 0#8 := by
  have inside : c - 16 < 80 := by omega
  rw [openedNote_eq, readCell_sealNote (by simp) hc, List.getD_eq_getElem?_getD,
    List.getElem?_append_right (by simpa using h), noteHeader_length, List.getElem?_replicate, if_pos inside]
  rfl

/-! ### The FLUSH note (R142) -/

/-- Columns 16 to 31 of a FLUSH note: the gauge's values, the flush counts and the number of rows listed. -/
def noteCharge (gauge : GaugeNote) (counts : FlushCounts) (listed : Nat) : List Byte :=
  leBytes 4 gauge.remaining ++ (leBytes 4 gauge.learned ++ (leBytes 4 gauge.drawn ++ (leBytes 1 counts.committed ++
    (leBytes 1 counts.failed ++ (leBytes 1 counts.lost ++ leBytes 1 listed)))))

/-- Columns 32 to 95 of a FLUSH note: the rows listed, then zeros. -/
def noteTable (listed : List FailedRow) : List Byte :=
  listed.flatMap rowBytes ++ List.replicate (4 * (16 - listed.length)) 0#8

/-- The flag byte of a FLUSH note. -/
def noteFlags (gauge : GaugeNote) (overflow : Bool) : Byte :=
  packed .noteFlags 0xF8#8 (flagBit 0 gauge.valid + flagBit 1 gauge.anchor + flagBit 2 overflow)

theorem flushNote_eq (stamp dropCounter sequence : Tick) (gauge : GaugeNote) (rows : List FailedRow) (overflow : Bool)
    (counts : FlushCounts) : flushNote stamp dropCounter sequence gauge rows overflow counts =
      sealNote (noteHeader 0x02#8 (noteFlags gauge overflow) stamp dropCounter sequence ++
        (noteCharge gauge counts (rows.take 16).length ++ noteTable (rows.take 16))) := by
  simp [flushNote, noteHeader, noteCharge, noteTable, noteFlags]

@[simp] theorem noteCharge_length (gauge : GaugeNote) (counts : FlushCounts) (listed : Nat) :
    (noteCharge gauge counts listed).length = 16 := by simp [noteCharge]

theorem rowBytes_length (r : FailedRow) : (rowBytes r).length = 4 := by simp [rowBytes]

theorem noteTable_length {listed : List FailedRow} (h : listed.length ≤ 16) : (noteTable listed).length = 64 := by
  have rows : (listed.flatMap rowBytes).length = 4 * listed.length := by
    simp [List.length_flatMap, rowBytes_length, Nat.mul_comm]
  rw [noteTable, List.length_append, rows, List.length_replicate]
  omega

theorem noteFlags_bits (gauge : GaugeNote) (overflow : Bool) :
    (noteFlags gauge overflow).getLsbD 0 = gauge.valid ∧ (noteFlags gauge overflow).getLsbD 1 = gauge.anchor ∧
      (noteFlags gauge overflow).getLsbD 2 = overflow := by
  rw [noteFlags, packed_getLsbD _ (by decide), packed_getLsbD _ (by decide), packed_getLsbD _ (by decide)]
  obtain ⟨valid, anchor, marked, -⟩ := flagBits_getLsbD gauge.valid gauge.anchor overflow false false false
  exact ⟨valid, anchor, marked⟩

section Charge

variable {gauge : GaugeNote} {counts : FlushCounts} {listed : Nat} {header rest : List Byte} {page : Page}
  (hp : page = sealNote (header ++ (noteCharge gauge counts listed ++ rest))) (hh : header.length = 16)
  (hr : rest.length = 64)
include hp hh hr

theorem noteCharge_gauge (h1 : gauge.remaining < 4294967296) (h2 : gauge.learned < 4294967296)
    (h3 : gauge.drawn < 4294967296) :
    readField page 16 4 = gauge.remaining ∧ readField page 20 4 = gauge.learned ∧ readField page 24 4 = gauge.drawn := by
  have length : (header ++ (noteCharge gauge counts listed ++ rest)).length = 96 := by simp [hh, hr]
  subst hp
  refine ⟨?_, ?_, ?_⟩
  all_goals
    rw [readField_sealNote length (by decide)]
    simp [noteCharge, bytesField_append_right, bytesField_leBytes_append, *]

theorem noteCharge_counts (h1 : counts.committed < 256) (h2 : counts.failed < 256) (h3 : counts.lost < 256)
    (h4 : listed < 256) :
    readField page 28 1 = counts.committed ∧ readField page 29 1 = counts.failed ∧ readField page 30 1 = counts.lost ∧
      readField page 31 1 = listed := by
  have length : (header ++ (noteCharge gauge counts listed ++ rest)).length = 96 := by simp [hh, hr]
  subst hp
  refine ⟨?_, ?_, ?_, ?_⟩
  all_goals
    rw [readField_sealNote length (by decide)]
    simp [noteCharge, bytesField_append_right, bytesField_leBytes_append, *]

end Charge

section Table

variable {listed : List FailedRow} {before : List Byte} {page : Page} (hp : page = sealNote (before ++ noteTable listed))
  (hb : before.length = 32) (hl : listed.length ≤ 16)
include hp hb hl

theorem readField_noteTable {c n : Nat} (hc : c + n ≤ 64) :
    readField page (32 + c) n = bytesField (noteTable listed) c n := by
  rw [hp, readField_sealNote (by simp [hb, noteTable_length hl]) (by omega), bytesField_append_right _ _ _ _ (by omega), hb,
    Nat.add_sub_cancel_left]

/-- The four bytes of the i-th row (10.4). -/
theorem noteTable_row {i : Nat} {r : FailedRow} (hr : listed[i]? = some r) (hblock : r.block < 32768)
    (hpage : ∀ p, r.page = some p → p < 128) :
    readField page (32 + 4 * i) 2 = r.block ∧
      readField page (34 + 4 * i) 1 = (match r.page with | none => 255 | some p => p) ∧
      readField page (35 + 4 * i) 1 = 0 := by
  have inside : i < listed.length := (List.getElem?_eq_some_iff.1 hr).1
  have part {c n : Nat} (hc : c + n ≤ 4) :
      readField page (32 + (4 * i + c)) n = bytesField (rowBytes r) c n := by
    rw [readField_noteTable hp hb hl (by omega), noteTable, bytesField_flatMap_part rowBytes_length hr hc]
  refine ⟨?_, ?_, ?_⟩
  · rw [show 32 + 4 * i = 32 + (4 * i + 0) by omega, part (by decide), rowBytes, List.append_assoc]
    exact bytesField_leBytes_append (by omega) _
  · rw [show 34 + 4 * i = 32 + (4 * i + 2) by omega, part (by decide), rowBytes, bytesField_append_left _ _ _ _ (by simp),
      bytesField_append_right _ _ _ _ (by simp), leBytes_length, Nat.sub_self, bytesField_optBytes_one]
    cases hp : r.page with
    | none => rfl
    | some p => exact Nat.mod_eq_of_lt ((hpage p hp).trans (by decide))
  · rw [show 35 + 4 * i = 32 + (4 * i + 3) by omega, part (by decide), rowBytes, bytesField_append_right _ _ _ _ (by simp)]
    simp [bytesField]

theorem noteTable_empty {i : Nat} (hi : listed.length ≤ i) (h16 : i < 16) :
    readField page (32 + 4 * i) 4 = 0 := by
  have rows : (listed.flatMap rowBytes).length = 4 * listed.length := by
    simp [List.length_flatMap, rowBytes_length, Nat.mul_comm]
  rw [readField_noteTable hp hb hl (by omega), noteTable, bytesField_append_right _ _ _ _ (by omega), bytesField_zeros]

end Table

/-! ### Rows read back (R188) -/

theorem filterMap_range_getElem? {α : Type} (l : List α) : (List.range l.length).filterMap (fun i => l[i]?) = l := by
  induction l with
  | nil => rfl
  | cons a l ih =>
    rw [List.length_cons, List.range_succ_eq_map, List.filterMap_cons, List.filterMap_map]
    simpa [Function.comp_def] using ih

theorem noteRow_eq {page : Page} {i : Nat} {r : FailedRow} (hb : readField page (32 + 4 * i) 2 = r.block)
    (hp : readField page (34 + 4 * i) 1 = (match r.page with | none => 255 | some p => p)) (hblock : r.block < 32768)
    (hpage : ∀ p, r.page = some p → p < 128) : noteRow page i = some r := by
  obtain ⟨block, rowPage⟩ := r
  simp only at hb hp hblock hpage
  rw [noteRow, hb, hp, if_neg (by omega)]
  cases rowPage with
  | none => rfl
  | some p =>
    have inRange := hpage p rfl
    dsimp only
    rw [if_neg (by omega), if_neg (by omega)]

theorem noteRows_eq {page : Page} {listed : List FailedRow} (hl : listed.length ≤ 16)
    (hn : readField page 31 1 = listed.length) (hr : ∀ i r, listed[i]? = some r → noteRow page i = some r) :
    noteRows page = listed := by
  rw [noteRows, hn, Nat.min_eq_right hl]
  refine Eq.trans (List.filterMap_congr fun i hi => ?_) (filterMap_range_getElem? listed)
  have inside : i < listed.length := List.mem_range.1 hi
  rw [hr i listed[i] (List.getElem?_eq_getElem inside), List.getElem?_eq_getElem inside]

/-- Each record of the list gives a row or none, as its block and page are in range. -/
theorem noteRows_parts (page : Page) : ∃ parts : List (List FailedRow), noteRows page = parts.flatten ∧
    parts.length = min 16 (readField page 31 1) ∧ ∀ i part, parts[i]? = some part → part = (noteRow page i).toList := by
  refine ⟨(List.range (min 16 (readField page 31 1))).map (fun i => (noteRow page i).toList), ?_, by simp, ?_⟩
  · rw [noteRows, List.filterMap_eq_flatMap_toList, List.flatMap_def]
  · intro i part hi
    rw [List.getElem?_map, Option.map_eq_some_iff] at hi
    obtain ⟨j, hj, rfl⟩ := hi
    obtain ⟨_, rfl⟩ := List.getElem?_eq_some_iff.1 hj
    rw [List.getElem_range]

theorem noteRow_none {page : Page} {i : Nat} (h : 32768 ≤ readField page (32 + 4 * i) 2 ∨
    128 ≤ readField page (34 + 4 * i) 1 ∧ readField page (34 + 4 * i) 1 ≤ 254) : noteRow page i = none := by
  rw [noteRow]
  rcases h with h | ⟨h128, h254⟩
  · exact if_pos h
  · rw [if_neg (show ¬ readField page (34 + 4 * i) 1 = 255 by omega), if_pos h128, ite_self]

theorem noteRow_block {page : Page} {i : Nat} (hb : readField page (32 + 4 * i) 2 < 32768)
    (hp : readField page (34 + 4 * i) 1 = 255) :
    noteRow page i = some { block := readField page (32 + 4 * i) 2, page := none } := by
  rw [noteRow]
  rw [if_neg (by omega), if_pos hp]

theorem noteRow_page {page : Page} {i : Nat} (hb : readField page (32 + 4 * i) 2 < 32768)
    (hp : readField page (34 + 4 * i) 1 < 128) :
    noteRow page i =
      some { block := readField page (32 + 4 * i) 2, page := some (readField page (34 + 4 * i) 1) } := by
  rw [noteRow]
  rw [if_neg (by omega), if_neg (by omega), if_neg (by omega)]

/-! ### The notes as composed -/

theorem openedNote_fields (stamp dropCounter sequence : Tick) :
    let page := openedNote stamp dropCounter sequence
    (Page.Canonical page ∧ notePageOk page = true ∧ noteIsFlush page = false ∧ noteDropCounter page = dropCounter ∧
      noteSequence page = sequence) ∧
    readField page 0 2 = 0xB35C ∧ readField page 2 1 = 1 ∧ readField page 3 1 = 0 ∧
    readField page 4 4 = stamp.toNat ∧ readField page 8 4 = dropCounter.toNat ∧ readField page 12 4 = sequence.toNat := by
  intro page
  have composed : page = _ := openedNote_eq stamp dropCounter sequence
  have length : (List.replicate 80 0#8).length = 80 := List.length_replicate
  obtain ⟨tag, kind, flags, stampColumn, dropColumn, sequenceColumn⟩ := noteHeader_fields composed length
  have notFlush : noteIsFlush page = false := by rw [noteIsFlush, kind]; rfl
  have unflagged : readField page 3 1 = 0 := by rw [readField_one, flags]; rfl
  exact ⟨⟨composed ▸ sealNote_canonical _, notePageOk_sealNote composed length (.inl rfl), notFlush,
    noteDropCounter_eq dropColumn, noteSequence_eq sequenceColumn⟩, tag, kind, unflagged, stampColumn, dropColumn,
    sequenceColumn⟩

theorem flushNote_bodyLength (gauge : GaugeNote) (counts : FlushCounts) (rows : List FailedRow) :
    (noteCharge gauge counts (rows.take 16).length ++ noteTable (rows.take 16)).length = 80 := by
  rw [List.length_append, noteCharge_length, noteTable_length (List.length_take_le 16 rows)]

section Flush

variable {stamp dropCounter sequence : Tick} {gauge : GaugeNote} {rows : List FailedRow} {overflow : Bool}
  {counts : FlushCounts} {page : Page} (hp : page = flushNote stamp dropCounter sequence gauge rows overflow counts)
include hp

theorem flushNote_header : (Page.Canonical page ∧ notePageOk page = true ∧ noteIsFlush page = true ∧
      noteDropCounter page = dropCounter ∧ noteSequence page = sequence) ∧
    readField page 0 2 = 0xB35C ∧ readField page 2 1 = 2 ∧ readCell page 3 = noteFlags gauge overflow ∧
    readField page 4 4 = stamp.toNat ∧ readField page 8 4 = dropCounter.toNat ∧ readField page 12 4 = sequence.toNat := by
  rw [flushNote_eq] at hp
  have length := flushNote_bodyLength gauge counts rows
  obtain ⟨tag, kind, flags, stampColumn, dropColumn, sequenceColumn⟩ := noteHeader_fields hp length
  exact ⟨⟨hp ▸ sealNote_canonical _, notePageOk_sealNote hp length (.inr rfl), decide_eq_true kind,
    noteDropCounter_eq dropColumn, noteSequence_eq sequenceColumn⟩, tag, kind, flags, stampColumn, dropColumn,
    sequenceColumn⟩

theorem flushNote_flags : (readCell page 3).getLsbD 0 = gauge.valid ∧ (readCell page 3).getLsbD 1 = gauge.anchor ∧
    (readCell page 3).getLsbD 2 = overflow := by
  obtain ⟨-, -, -, flags, -⟩ := flushNote_header hp
  rw [flags]
  exact noteFlags_bits gauge overflow

theorem flushNote_gauge (h1 : gauge.remaining < 4294967296) (h2 : gauge.learned < 4294967296)
    (h3 : gauge.drawn < 4294967296) :
    readField page 16 4 = gauge.remaining ∧ readField page 20 4 = gauge.learned ∧ readField page 24 4 = gauge.drawn :=
  noteCharge_gauge (hp.trans (flushNote_eq ..)) noteHeader_length (noteTable_length (List.length_take_le 16 rows)) h1 h2 h3

theorem flushNote_counts (h1 : counts.committed < 256) (h2 : counts.failed < 256) (h3 : counts.lost < 256) :
    readField page 28 1 = counts.committed ∧ readField page 29 1 = counts.failed ∧ readField page 30 1 = counts.lost ∧
      readField page 31 1 = (rows.take 16).length := by
  have most : (rows.take 16).length ≤ 16 := List.length_take_le 16 rows
  exact noteCharge_counts (hp.trans (flushNote_eq ..)) noteHeader_length (noteTable_length most) h1 h2 h3 (by omega)

/-- The table of rows stands from column 32 on. -/
theorem flushNote_table : page = sealNote ((noteHeader 0x02#8 (noteFlags gauge overflow) stamp dropCounter sequence ++
    noteCharge gauge counts (rows.take 16).length) ++ noteTable (rows.take 16)) := by
  rw [hp, flushNote_eq, List.append_assoc]

theorem flushNote_row {i : Nat} {r : FailedRow} (hr : (rows.take 16)[i]? = some r) (hblock : r.block < 32768)
    (hpage : ∀ p, r.page = some p → p < 128) :
    readField page (32 + 4 * i) 2 = r.block ∧
      readField page (34 + 4 * i) 1 = (match r.page with | none => 255 | some p => p) ∧
      readField page (35 + 4 * i) 1 = 0 :=
  noteTable_row (flushNote_table hp) (by simp) (List.length_take_le 16 rows) hr hblock hpage

theorem flushNote_empty {i : Nat} (hi : (rows.take 16).length ≤ i) (h16 : i < 16) : readField page (32 + 4 * i) 4 = 0 :=
  noteTable_empty (flushNote_table hp) (by simp) (List.length_take_le 16 rows) hi h16

theorem flushNote_blank {c : Nat} (hc : 98 ≤ c) : readCell page c = 0xFF#8 := by
  rw [hp, flushNote_eq]
  exact readCell_sealNote_blank (by rw [List.length_append, noteHeader_length, flushNote_bodyLength]) hc

end Flush

/-! ### The obligation -/

theorem toNat_ofNat_readField (page : Page) (c : Nat) : (BitVec.ofNat 32 (readField page c 4)).toNat = readField page c 4 :=
  Nat.mod_eq_of_lt (readField_lt page c 4)

/-- Settles O49: each column by the part of the note it lies in. -/
theorem notesReadBack : Obligations.NotesReadBack := by
  refine ⟨fun stamp dropCounter sequence gauge rows overflow counts hrem hlearned hdrawn hcommitted hfailed hlost hrows =>
    ?flush, fun stamp dropCounter sequence => ?opened, fun page => ?decoded⟩
  case flush =>
    intro page
    have composed : page = flushNote stamp dropCounter sequence gauge rows overflow counts := rfl
    clear_value page
    have length : (rows.take 16).length = min 16 rows.length := List.length_take
    obtain ⟨decoded, tag, kind, -, stampColumn, dropColumn, sequenceColumn⟩ := flushNote_header composed
    obtain ⟨canonical, ok, kindDecoded, dropDecoded, sequenceDecoded⟩ := decoded
    obtain ⟨valid, anchor, marked⟩ := flushNote_flags composed
    obtain ⟨remaining, learned, drawn⟩ := flushNote_gauge composed hrem hlearned hdrawn
    obtain ⟨committed, failed, lost, listed⟩ := flushNote_counts composed hcommitted hfailed hlost
    have inRange {i : Nat} {r : FailedRow} (hr : (rows.take 16)[i]? = some r) :=
      hrows r (List.mem_of_mem_take (List.mem_of_getElem? hr))
    have row {i : Nat} {r : FailedRow} (hr : (rows.take 16)[i]? = some r) :=
      flushNote_row composed hr (inRange hr).1 (inRange hr).2
    have rowsDecoded : noteRows page = rows.take 16 := by
      refine noteRows_eq (List.length_take_le 16 rows) listed fun i r hr => ?_
      obtain ⟨block, byte, -⟩ := row hr
      exact noteRow_eq block byte (inRange hr).1 (inRange hr).2
    refine ⟨⟨canonical, ok, kindDecoded, dropDecoded, sequenceDecoded, ?_, rowsDecoded, marked, ?_⟩, tag, kind, valid,
      anchor, marked, stampColumn, dropColumn, sequenceColumn, remaining, learned, drawn, committed, failed, lost,
      listed.trans length, fun i r h16 hr => row ((List.getElem?_take_of_lt h16).trans hr),
      fun i hi h16 => flushNote_empty composed (by omega) h16, fun c => flushNote_blank composed⟩
    · rw [noteGauge, remaining, learned, drawn, valid, anchor]
    · rw [noteCounts, committed, failed, lost]
  case opened =>
    intro page
    obtain ⟨checked, tag, kind, flags, stampColumn, dropColumn, sequenceColumn⟩ :=
      openedNote_fields stamp dropCounter sequence
    refine ⟨checked, tag, kind, flags, stampColumn, dropColumn, sequenceColumn,
      fun c h16 h96 => openedNote_zeros stamp dropCounter sequence h16 h96, fun c hc => ?_⟩
    change readCell (openedNote stamp dropCounter sequence) c = _
    rw [openedNote_eq]
    exact readCell_sealNote_blank (by simp) hc
  case decoded =>
    refine ⟨decide_eq_true_iff, toNat_ofNat_readField page 8, toNat_ofNat_readField page 12, rfl, rfl, rfl, ?_⟩
    obtain ⟨parts, flat, length, part⟩ := noteRows_parts page
    refine ⟨parts, flat, length, fun i x hi => ?_⟩
    rw [part i x hi]
    exact ⟨fun h => by rw [noteRow_none h]; rfl, fun hb hp => by rw [noteRow_block hb hp]; rfl,
      fun hb hp => by rw [noteRow_page hb hp]; rfl⟩

end Sys2Proof.Machine
end

section
/-! Report Memory's law (R151, R152, R154, R164): what the part does to the ring outside the front and the media side keeps
it. -/

namespace Sys2Proof.Machine

/-! ### The ring -/

theorem ReportMemory.Lawful.ring {r : ReportMemory} {mask : BitVec 16} (h : r.Lawful mask) :
    RingLaw r.ring r.next r.slots :=
  (ReportMemory.lawful_iff.1 h).1

/-- Report Memory at power-on is empty, and ATTN is low while it is masked (R163, R166). -/
theorem ReportMemory.powerOn_lawful (mask : BitVec 16) : ReportMemory.powerOn.Lawful mask where
  length := Nat.zero_le _
  numbers i x hx := by simp [ReportMemory.powerOn] at hx
  counts x hx := by simp [ReportMemory.powerOn] at hx
  slots c n := by cases c <;> simp [ReportMemory.powerOn, Slots.get]
  attn := rfl

/-- Drops that are passed on join the ring one after another (R100). -/
theorem passReady_lawful {mask : BitVec 16} (stamp : Tick) (l : List Drop) {r : ReportMemory} (h : r.Lawful mask) :
    (passReady mask stamp l r).2.Lawful mask := by
  induction l generalizing r with
  | nil => exact h
  | cons x rest ih =>
    unfold passReady
    split
    · exact h
    · exact ih (ReportMemory.append_lawful h.ring stamp nofun)

/-- An apply that ends the masking evaluates ATTN by the mask it puts in force, whatever ATTN was before (R164, R175). -/
theorem State.wholeApply_reportLaw {s : State} (h : RingLaw s.report.ring s.report.next s.report.slots)
    (p : ProfileImage) (page : Option Nat) (g : Gauge) : (s.wholeApply p page g).1.ReportLaw :=
  ReportMemory.evaluate_lawful h

namespace State.ReportLaw

variable {s : State} (h : s.ReportLaw)
include h

/-- The law speaks of Report Memory and of the mask in force alone. -/
theorem of_frame {t : State} (ht : t.report = s.report ∧ t.control.settings = s.control.settings) : t.ReportLaw := by
  obtain ⟨hr, hv⟩ := ht
  unfold State.ReportLaw
  rw [hr, hv]
  exact h

/-! ### Records (R152, R153) -/

theorem record {p : Payload} (hp : ∀ x, p ≠ .refusal x := by nofun) : (s.record p).ReportLaw :=
  ReportMemory.append_lawful (ReportMemory.Lawful.ring h) _ hp

theorem withConsumption (image : Option Page) :
    (s.withReport { s.report with consumption := image }).ReportLaw :=
  ⟨h.length, h.numbers, h.counts, h.slots, h.attn⟩

theorem withFrontState (f : FrontState) : (s.withFrontState f).ReportLaw := h.of_frame ⟨rfl, rfl⟩

theorem withQueue (q : HoldQueue) : (s.withQueue q).ReportLaw := h.of_frame ⟨rfl, rfl⟩

theorem withMedia (m : Scheduler) : (s.withMedia m).ReportLaw := h.of_frame ⟨rfl, rfl⟩

theorem reportDrops : s.reportDrops.ReportLaw := by
  unfold State.reportDrops
  split
  · exact passReady_lawful _ _ h
  · exact h

theorem dropDeparted (tag : Option Tick) (way : Departure) : (s.dropDeparted tag way).ReportLaw := by
  cases tag with
  | none => exact h
  | some number => exact reportDrops (h.of_frame ⟨rfl, rfl⟩)

theorem loadCounters (dropBase sequenceBase : Tick) : (s.loadCounters dropBase sequenceBase).ReportLaw := by
  have loaded : ((s.withDrop (s.drop.load dropBase)).withReport (s.report.load sequenceBase)).ReportLaw :=
    ReportMemory.load_lawful h sequenceBase
  exact loaded.reportDrops

/-! ### The battery lines and the gates (R111, R120 to R126) -/

theorem withGauge (g : Gauge) : (s.withGauge g).ReportLaw := h.of_frame ⟨rfl, rfl⟩

theorem batteryEdge (edge : HeldEdge) : (s.batteryEdge edge).ReportLaw := by
  unfold State.batteryEdge
  dsimp only
  split
  · split
    · exact h.withGauge _
    · exact h
  · split
    · split
      · exact (h.withGauge _).record.withGauge _
      · exact h.withGauge _
    · exact h
  · exact (h.withGauge _).record
  · exact (h.withGauge _).record

theorem takeBatteryEdge (edge : HeldEdge) : (s.takeBatteryEdge edge).ReportLaw := by
  unfold State.takeBatteryEdge
  split
  · exact h.withGauge _
  · exact h.batteryEdge edge

/-- The edges held during the start-up hold act one after another. -/
theorem endGaugeHold : s.endGaugeHold.ReportLaw := by
  have edges (l : List HeldEdge) {u : State} (hu : u.ReportLaw) : (l.foldl State.batteryEdge u).ReportLaw := by
    induction l generalizing u with
    | nil => exact hu
    | cons e l ih => exact ih (hu.batteryEdge e)
  unfold State.endGaugeHold
  split
  · exact edges _ (h.withGauge _)
  · exact h

theorem endGate : s.endGate.ReportLaw := by
  unfold State.endGate
  dsimp only
  split
  · exact h.withGauge _
  · exact (h.withGauge _).record

/-! ### Applies (R164, R174, R175, R179) -/

/-- A later apply evaluates ATTN by the mask it puts in force. -/
theorem laterApply (p : ProfileImage) (page : Option Nat) : (s.laterApply p page).1.ReportLaw :=
  ReportMemory.evaluate_lawful (ReportMemory.Lawful.ring h)

theorem startUpApply (p : ProfileImage) (page : Option Nat) : (s.startUpApply p page).1.ReportLaw :=
  State.wholeApply_reportLaw (ReportMemory.Lawful.ring h) p page _

theorem recoverSettings : s.recoverSettings.ReportLaw := by
  unfold State.recoverSettings
  split
  · exact State.wholeApply_reportLaw (ReportMemory.Lawful.ring h) defaultProfile none _
  · exact h

theorem serviceApply (image : Page) (page : Nat) : (s.serviceApply image page).ReportLaw := by
  unfold State.serviceApply
  split
  · exact h.record
  · exact (h.laterApply _ _).record

theorem applyAtStartUp (r : ScanResult) : (s.applyAtStartUp r).ReportLaw := by
  unfold State.applyAtStartUp
  split
  · split
    · exact (h.startUpApply _ _).record
    · exact (h.startUpApply _ _).record
  · exact (h.startUpApply _ _).record
  · exact (h.startUpApply _ _).record

theorem applyAtLineReset (r : ScanResult) : (s.applyAtLineReset r).ReportLaw := by
  unfold State.applyAtLineReset
  split
  · split
    · exact h.record
    · exact (h.laterApply _ _).record
  · exact (h.laterApply _ _).record
  · exact h.record

/-! ### Entries that leave the queue (R50 to R55) -/

theorem applyCommitted (e : Entry) : (s.applyCommitted e).ReportLaw := by
  unfold State.applyCommitted
  split
  · exact h.serviceApply _ _
  · exact h

theorem afterPass (e : Entry) : (s.afterPass e).ReportLaw := by
  have chosen : (s.withFree (s.free + 1)).ReportLaw := h.of_frame ⟨rfl, rfl⟩
  unfold State.afterPass
  dsimp only
  split
  · split
    · exact (chosen.dropDeparted _ _).applyCommitted e
    · exact (chosen.applyCommitted e).dropDeparted _ _
  · exact (h.dropDeparted _ _).applyCommitted e

theorem reportUnwritten (e : Entry) (cause : CommitFailCause) (way : Departure) :
    (s.reportUnwritten e cause way).ReportLaw := by
  have added : (s.addFailedRow e.failedRow).1.ReportLaw := h.of_frame (by simp)
  exact added.record.dropDeparted _ _

theorem commitDone (d : Die) (r : MediaResult) : (s.commitDone d r).ReportLaw := by
  unfold State.commitDone
  split
  · exact h
  · dsimp only
    split
    · exact afterPass (h.of_frame (by simp)) _
    · unfold State.failCommit
      dsimp only
      split
      · exact dropDeparted (h.of_frame (by simp)) _ _
      · exact reportUnwritten (h.of_frame (by simp)) _ _ _

/-- Each entry that is lost has its record. -/
theorem loseEntries : s.loseEntries.ReportLaw := by
  have each (l : List Entry) {u : State} (hu : u.ReportLaw) :
      (l.foldl (fun acc e => acc.reportUnwritten e .lost .lost) u).ReportLaw := by
    induction l generalizing u with
    | nil => exact hu
    | cons e l ih => exact ih (hu.reportUnwritten e _ _)
  exact each _ (h.of_frame ⟨rfl, rfl⟩)

theorem withdraw : s.withdraw.ReportLaw := by
  unfold State.withdraw
  split
  · exact h
  · exact (h.withQueue _).dropDeparted _ _

end State.ReportLaw

end Sys2Proof.Machine
end

section
/-! Report Memory's law (R151, R152, R154, R164): the Service Controller's sequences and the consequences of an event keep
it. -/

namespace Sys2Proof.Machine

namespace State.ReportLaw

variable {s : State} (h : s.ReportLaw)
include h

/-! ### The note outcome and the scans (R170 to R177, R183) -/

/-- The sequence goes on and makes its next request. -/
theorem ask (q : Sequence) (op : ServiceOp) : ((s.withSequence q).request op).ReportLaw := h.of_frame ⟨rfl, rfl⟩

/-- An opening ends with the START record (R147, R180). -/
theorem finishOpening (o : Opening) : (s.finishOpening o).ReportLaw := by
  cases o with
  | startUp info => exact h.record (p := .start _)
  | dipRecovery => exact h.record (p := .start _)

theorem openOrFinish (o : Opening) : (s.openOrFinish o).ReportLaw := by
  unfold State.openOrFinish
  split
  · exact h.of_frame (by simp)
  · exact h.finishOpening o

theorem cleanStart (page : Nat) (image : Page) : (s.cleanStart page image).ReportLaw := by
  have loaded := h.loadCounters (noteDropCounter image) (noteSequence image)
  have restored := (loaded.withGauge ((s.loadCounters (noteDropCounter image) (noteSequence image)).gauge.restore
    (noteGauge image))).endGaugeHold
  unfold State.cleanStart
  exact openOrFinish (restored.of_frame (by simp)) _

theorem settleNote (best : Option (Nat × Page)) : (s.settleNote best).ReportLaw := by
  unfold State.settleNote
  split
  · exact (h.loadCounters 0 0).endGaugeHold.openOrFinish _
  · split
    · exact h.cleanStart _ _
    · exact (h.loadCounters _ _).endGaugeHold.openOrFinish _

theorem loseNote : s.loseNote.ReportLaw := h.of_frame (by simp)

theorem noteScanned (page : Nat) (best : Option (Nat × Page)) (data : Page) :
    (s.noteScanned page best data).ReportLaw := by
  have placed (n : Nat) : (s.withControl { s.control with nextNotePage := some n }).ReportLaw :=
    h.of_frame ⟨rfl, rfl⟩
  unfold State.noteScanned
  split
  · exact (placed page).settleNote best
  · dsimp only
    split
    · exact (placed 128).settleNote _
    · exact h.ask _ _

theorem probeNext (dies : List Die) : (s.probeNext dies).ReportLaw := by
  cases dies with
  | nil =>
    unfold State.probeNext State.beginNoteScan
    dsimp only
    split
    · exact h.ask _ _
    · exact h.loseNote.settleNote none
  | cons d rest => exact h.ask _ _

theorem scanEnded (purpose : ScanFor) (result : ScanResult) : (s.scanEnded purpose result).ReportLaw := by
  cases purpose with
  | startUp => exact (h.applyAtStartUp result).probeNext _
  | lineReset => exact (h.applyAtLineReset result).record (p := .start _)

theorem beginScan (purpose : ScanFor) : (s.beginScan purpose).ReportLaw := by
  unfold State.beginScan
  exact iteInduction (motive := State.ReportLaw) (fun _ => h.ask _ _) (fun _ => h.scanEnded purpose .unread)

theorem scanOn (purpose : ScanFor) (page : Nat) (best : Option (Nat × Page)) (failed : Nat) :
    (s.scanOn purpose page best failed).ReportLaw := by
  unfold State.scanOn
  split
  · exact h.scanEnded purpose _
  · exact h.ask _ _

theorem profileScanned (purpose : ScanFor) (page : Nat) (best : Option (Nat × Page)) (failed : Nat) (data : Page) :
    (s.profileScanned purpose page best failed data).ReportLaw := by
  unfold State.profileScanned
  split
  · exact h.scanEnded purpose _
  · split
    · exact h.scanOn _ _ _ _
    · exact h.scanOn _ _ _ _

theorem lineProbeNext (dies : List Die) : (s.lineProbeNext dies).ReportLaw := h.of_frame (by simp)

/-! ### Dip recovery, SPENT and the flush (R132 to R149) -/

theorem recoverCounters : s.recoverCounters.ReportLaw := by
  unfold State.recoverCounters
  split
  · exact h
  · exact h.loadCounters 0 0

theorem recoverDrops : s.recoverDrops.ReportLaw := reportDrops (h.of_frame ⟨rfl, rfl⟩)

theorem beginRecovery : s.beginRecovery.ReportLaw :=
  h.recoverCounters.recoverSettings.recoverDrops.openOrFinish .dipRecovery

theorem enterSpent : s.enterSpent.ReportLaw := by
  have spent : ((s.withSequence .none).withServiceState .spent).ReportLaw := h.of_frame ⟨rfl, rfl⟩
  unfold State.enterSpent
  dsimp only
  split
  · exact spent.beginRecovery
  · exact spent

theorem stopStartUp : s.stopStartUp.ReportLaw := enterSpent (endGaugeHold (h.of_frame ⟨rfl, rfl⟩))

theorem endFlush (outcome : FlushNoteOutcome) : (s.endFlush outcome).ReportLaw := enterSpent (h.of_frame ⟨rfl, rfl⟩)

theorem endDrain : s.endDrain.ReportLaw := by
  unfold State.endDrain
  dsimp only
  split
  · exact h.loseEntries.ask _ _
  · exact h.loseEntries.endFlush _

/-! ### Results (R72, R143, R148) -/

theorem noteWritten (op : ServiceOp) (r : MediaResult) : (s.noteWritten op r).ReportLaw := h.of_frame (by simp)

theorem oldNoteWritten (op : ServiceOp) (r : MediaResult) : (s.oldNoteWritten op r).ReportLaw := by
  have noted := h.noteWritten op r
  have goesOn (o : Opening) :
      (if (s.noteWritten op r).control.noteUsable then s.noteWritten op r
        else ((s.noteWritten op r).withMedia (s.noteWritten op r).media.withdrawNotes).finishOpening o).ReportLaw := by
    split
    · exact noted
    · exact (noted.withMedia _).finishOpening o
  unfold State.oldNoteWritten
  dsimp only
  split
  · exact goesOn _
  · exact goesOn _
  all_goals exact noted

theorem sequenceResult (op : ServiceOp) (r : MediaResult) : (s.sequenceResult op r).ReportLaw := by
  unfold State.sequenceResult
  split
  next => exact h
  next => exact h
  next => exact h.beginScan .startUp
  next =>
    split
    · exact h.profileScanned _ _ _ _ _
    · exact h.scanOn _ _ _ _
    · exact h.scanEnded _ _
    · exact h.scanEnded _ _
  next => exact h.probeNext _
  next =>
    split
    · exact h.noteScanned _ _ _
    · exact h.loseNote.settleNote _
  next => exact (h.noteWritten op r).openOrFinish _
  next => exact (h.noteWritten op r).finishOpening _
  next => exact h.lineProbeNext _
  next => exact h
  next => exact h
  next => exact (h.noteWritten op r).endFlush _

theorem serviceDone (request : ServiceRequest) (r : MediaResult) : (s.serviceDone request r).ReportLaw := by
  unfold State.serviceDone
  split
  · exact h.sequenceResult _ _
  · exact h.oldNoteWritten _ _
  · exact h

theorem handResult (d : Die) (requester : Requester) (r : MediaResult) (data : Page) :
    (s.handResult d requester r data).ReportLaw := by
  unfold State.handResult
  split
  · exact h
  · exact h.of_frame (by simp)
  · exact h.commitDone _ _
  · exact h.serviceDone _ _

/-! ### The consequences of an event (R49, R65 to R69, R75, R77) -/

theorem takeRequest (r : ServiceRequest) : (s.takeRequest r).ReportLaw := h.withMedia _

theorem countFailure : s.countFailure.ReportLaw := h.withMedia _

/-- A service operation that starts is no matter of the ring, but for a FLUSH note that the budget does not cover. -/
theorem startService (d : Die) (r : ServiceRequest) : (s.startService d r).ReportLaw := by
  unfold State.startService
  dsimp only
  split
  case h_6 =>
    split
    · exact (h.takeRequest r).endFlush _
    · exact h.of_frame (by simp)
  all_goals exact h.of_frame (by simp)

theorem micro {t : State} (ht : s.micro = some t) : t.ReportLaw := by
  refine State.micro_keeps (P := State.ReportLaw) ?free ?service ?front ?commit ?probe ?pass ?fail ?failFront
    ?failCommit ?scan ?drain s t h ht
  case free => exact fun s n hs => hs.of_frame ⟨rfl, rfl⟩
  case service => exact fun s d r hs _ _ _ _ _ => hs.startService d r
  case front => exact fun s d row contested hs _ _ _ _ => by cases contested <;> exact hs.of_frame ⟨rfl, rfl⟩
  case commit => exact fun s d e hs _ _ _ => hs.of_frame (by simp)
  case probe => exact fun s r hs _ _ _ => hs.startService _ r
  case pass => exact fun s r hs _ _ _ => (hs.takeRequest r).serviceDone r _
  case fail => exact fun s r hs _ _ _ => (hs.takeRequest r).countFailure.serviceDone r _
  case failFront => exact fun s d row hs _ _ _ => hs.of_frame (by simp)
  case failCommit => exact fun s d e hs _ _ => hs.countFailure.commitDone d _
  case scan => exact fun s hs _ _ => hs.beginScan .lineReset
  case drain => exact fun s hs _ _ => hs.endDrain

theorem settled : s.settled.ReportLaw :=
  State.settled_keeps (fun _ _ hs ht => hs.micro ht) (fun _ hs => hs.of_frame ⟨rfl, rfl⟩) s h

end State.ReportLaw

end Sys2Proof.Machine
end

section
/-! Report Memory's law (R151, R152, R154, R164): every command keeps it. -/

namespace Sys2Proof.Machine

namespace State.ReportLaw

variable {s : State} (h : s.ReportLaw)
include h

/-! ### The front store bus (R19 to R37, R155 to R157) -/

theorem refuse (cause : RefusalCause) (op : OpKind) (row : BitVec 24) (absolute : Bool) :
    (s.refuse cause op row absolute).ReportLaw := by
  unfold State.refuse
  dsimp only
  split
  · exact h.of_frame ⟨rfl, rfl⟩
  · exact ReportMemory.refuse_lawful h _ _ _ _ _

theorem endTransaction : s.endTransaction.ReportLaw := by
  unfold State.endTransaction
  split
  case h_4 => exact h.withConsumption none
  all_goals exact h.of_frame ⟨rfl, rfl⟩

theorem takeOperation (kind : OpKind) : (s.takeOperation kind).ReportLaw := by
  have deselected : s.deselect.ReportLaw := h.of_frame ⟨rfl, rfl⟩
  unfold State.takeOperation
  dsimp only
  split
  · exact h
  split
  · exact h.of_frame ⟨rfl, rfl⟩
  split
  · exact h.of_frame ⟨rfl, rfl⟩
  · exact deselected.endTransaction.of_frame ⟨rfl, rfl⟩

theorem execStatus {t : State} (ht : execStatus s = .next t) : t.ReportLaw := by
  cases ht
  split
  · exact h
  split
  · exact h.of_frame ⟨rfl, rfl⟩
  · exact h.endTransaction.of_frame ⟨rfl, rfl⟩

theorem resetOperation : s.resetOperation.ReportLaw := by
  unfold State.resetOperation State.resetAwaiting
  split
  · exact h
  · exact h.endTransaction
  · exact h.of_frame ⟨rfl, rfl⟩
  · exact h.endTransaction
  · exact h.endTransaction
  · split
    · exact h.withdraw.of_frame ⟨rfl, rfl⟩
    · exact h.of_frame ⟨rfl, rfl⟩

theorem execReset {t : State} (ht : execReset s = .next t) : t.ReportLaw := by
  cases ht
  split
  · exact h
  split
  · exact h.of_frame ⟨rfl, rfl⟩
  · exact h.resetOperation.of_frame ⟨rfl, rfl⟩

theorem execUnknownOperationByte {byte : Byte} {t : State} (ht : execUnknownOperationByte byte s = .next t) :
    t.ReportLaw := by
  unfold Machine.execUnknownOperationByte at ht
  split at ht
  · cases ht; exact h
  · cases ht; exact h.takeOperation .read
  · cases ht; exact h.takeOperation .program
  · cases ht; exact h.takeOperation .erase
  · exact h.execStatus ht
  · exact h.execReset ht

theorem snoop (row column : Nat) : (s.snoop row column).ReportLaw := by
  unfold State.snoop
  split
  · exact h.of_frame ⟨rfl, rfl⟩
  · exact settled (h.of_frame ⟨rfl, rfl⟩)

theorem receive (op : Translated) : (s.receive op).ReportLaw := by
  unfold State.receive
  split
  · exact h.withConsumption (some [])
  all_goals exact h.of_frame ⟨rfl, rfl⟩

theorem route (op : Translated) : (s.route op).ReportLaw := by
  have passed : s.clearRefused.ReportLaw := h.of_frame ⟨rfl, rfl⟩
  unfold State.route
  dsimp only
  split
  · split
    · exact passed.snoop _ _
    · exact passed.of_frame ⟨rfl, rfl⟩
    · exact passed.snoop _ _
    · exact passed.snoop _ _
  · exact passed.receive op
  · exact passed.receive op

theorem execAddressByte {byte : Byte} {t : State} (ht : execAddressByte byte s = .next t) : t.ReportLaw := by
  cases ht
  split
  · exact h
  split
  · unfold State.endAddress
    split
    · exact (h.withFrontState _).refuse _ _ _ _
    · exact h.route _
  all_goals exact h.of_frame ⟨rfl, rfl⟩

theorem takeData (op : Translated) (next : Nat) (byte : Byte) : (s.takeData op next byte).ReportLaw := by
  unfold State.takeData
  dsimp only
  split
  · exact h.withConsumption _
  all_goals exact h.of_frame ⟨rfl, rfl⟩

theorem execDataByte {byte : Byte} {t : State} (ht : execDataByte byte s = .next t) : t.ReportLaw := by
  cases ht
  split
  · exact h
  split
  · split
    · exact h.takeData _ _ _
    · exact h
  all_goals exact h

theorem execReadStrobe {t : State} (ht : execReadStrobe s = .next t) : t.ReportLaw := by
  cases ht
  split
  · exact h.of_frame ⟨rfl, rfl⟩
  split
  all_goals exact h.of_frame ⟨rfl, rfl⟩

/-- A consumption write releases records, or is recorded as a refusal (R156). -/
theorem endConsumption : s.endConsumption.ReportLaw := by
  have ended := h.withConsumption none
  unfold State.endConsumption
  dsimp only
  split
  · exact ReportMemory.release_lawful (ReportMemory.Lawful.ring ended) _
  · exact (ended.withFrontState .idle).refuse _ _ _ _

theorem accept_offerAnew (op : Translated) (row : Nat) : (s.accept op row).offerAnew.ReportLaw := by
  have queued : (s.accept op row).ReportLaw := h.of_frame (by simp [State.accept])
  unfold State.offerAnew
  split
  · exact queued.settled
  · exact queued

theorem execEnd {t : State} (ht : execEnd s = .next t) : t.ReportLaw := by
  cases ht
  split
  · exact h
  split
  · split
    · exact h.endConsumption
    all_goals exact h.accept_offerAnew _ _
  all_goals exact h

/-! ### The media side (R65, R72 to R77) -/

theorem completeMedia (d : Die) (op : MediaOp) (r : MediaResult) (data : Page) :
    (s.completeMedia d op r data).ReportLaw := by
  have freed : (s.withDie d .idle).ReportLaw := h.of_frame ⟨rfl, rfl⟩
  unfold State.completeMedia
  refine settled (handResult ?_ _ _ _ _)
  split
  · exact freed
  · exact freed.countFailure

/-- The DIE_OFFLINE record follows what the failure brings about, and precedes it for a probe (R76, R77). -/
theorem timeOut (d : Die) (op : MediaOp) (start : Tick) (timeoutMs : Nat) :
    (s.timeOut d op start timeoutMs).ReportLaw := by
  have off : (s.withDie d .offline).ReportLaw := h.of_frame ⟨rfl, rfl⟩
  unfold State.timeOut
  split
  · exact (off.record (p := .dieOffline _)).handResult _ _ _ _
  all_goals exact (off.countFailure.handResult _ _ _ _).record (p := .dieOffline _)

theorem execCommandTransferEnd {d : Die} {t : State} (ht : execCommandTransferEnd d s = .next t) : t.ReportLaw := by
  cases ht
  split
  · exact h
  · exact h
  · split
    · exact h.of_frame ⟨rfl, rfl⟩
    · exact h

theorem execMrdySeenHigh {d : Die} {t : State} (ht : execMrdySeenHigh d s = .next t) : t.ReportLaw := by
  cases ht
  split
  · exact h
  · exact h
  · split
    · split
      case h_4 => exact h.completeMedia _ _ _ _
      all_goals exact h.of_frame ⟨rfl, rfl⟩
    all_goals exact h

theorem execReadoutEnd {d : Die} {page : Page} {t : State} (ht : execReadoutEnd d page s = .next t) :
    t.ReportLaw := by
  cases ht
  split
  · exact h
  · exact h
  · split
    · exact h.of_frame ⟨rfl, rfl⟩
    · exact h

theorem execMediaOperationComplete {d : Die} {status : Byte} {t : State}
    (ht : execMediaOperationComplete d status s = .next t) : t.ReportLaw := by
  have released : s.releaseLines.ReportLaw := h.of_frame ⟨rfl, rfl⟩
  cases ht
  split
  · exact h
  · exact h
  · split
    · split
      · exact released.completeMedia _ _ _ _
      · exact h
    all_goals exact h

theorem execDieTimeout {d : Die} {t : State} (ht : execDieTimeout d s = .next t) : t.ReportLaw := by
  cases ht
  split
  · exact h
  · exact h
  · split
    · split
      · exact (h.timeOut _ _ _ _).settled
      · exact h
    all_goals exact h

/-! ### The motion lines and their timers (R80 to R102) -/

theorem execFfallRise {t : State} (ht : execFfallRise s = .next t) : t.ReportLaw := by
  cases ht
  split
  · exact h
  · dsimp only
    split
    all_goals exact h.of_frame ⟨rfl, rfl⟩

theorem execFfallFall {t : State} (ht : execFfallFall s = .next t) : t.ReportLaw := by
  cases ht
  split
  · dsimp only
    split
    · exact record (s := (s.withPins _).withDrop _) (p := .sensor _) (h.of_frame ⟨rfl, rfl⟩)
    · split
      all_goals exact h.of_frame ⟨rfl, rfl⟩
  · exact h

theorem execFimpRise {t : State} (ht : execFimpRise s = .next t) : t.ReportLaw := by
  cases ht
  split
  · exact h
  · dsimp only
    split
    · split
      all_goals exact h.of_frame ⟨rfl, rfl⟩
    all_goals exact h.of_frame ⟨rfl, rfl⟩

theorem execFimpFall {t : State} (ht : execFimpFall s = .next t) : t.ReportLaw := by
  cases ht
  split
  · exact h.of_frame ⟨rfl, rfl⟩
  · exact h

theorem execMergeTimerExpiry {t : State} (ht : execMergeTimerExpiry s = .next t) : t.ReportLaw := by
  cases ht
  split
  · exact h.of_frame ⟨rfl, rfl⟩
  · exact h

theorem closeDrop (ceiling : Bool) : (s.closeDrop ceiling).ReportLaw := reportDrops (h.of_frame ⟨rfl, rfl⟩)

theorem suspendFreeFall (drop : Tick) (ceilingMs : Nat) : (s.suspendFreeFall drop ceilingMs).ReportLaw := by
  unfold State.suspendFreeFall
  split
  · exact record (s := s.withDrop _) (h.of_frame ⟨rfl, rfl⟩)
  · exact h

theorem execSettleTimerExpiry {t : State} (ht : execSettleTimerExpiry s = .next t) : t.ReportLaw := by
  cases ht
  split
  · exact (h.closeDrop _).settled
  · exact h

theorem execCeilingTimerExpiry {t : State} (ht : execCeilingTimerExpiry s = .next t) : t.ReportLaw := by
  cases ht
  split
  · exact ((h.closeDrop _).suspendFreeFall _ _).settled
  · exact h

/-! ### The battery lines and the gates (R106 to R122) -/

theorem execGateEnd {t : State} (ht : execGateEnd s = .next t) : t.ReportLaw := by
  cases ht
  split
  · exact h.endGate
  · exact h

theorem execMinuteBoundary {t : State} (ht : execMinuteBoundary s = .next t) : t.ReportLaw := by
  cases ht
  split
  · exact h.withGauge _
  · exact h

theorem withPins (p : LineLevels) : (s.withPins p).ReportLaw := h.of_frame ⟨rfl, rfl⟩

theorem execPkpresFall {t : State} (ht : execPkpresFall s = .next t) : t.ReportLaw := by
  cases ht
  split
  · exact (h.withPins _).takeBatteryEdge _
  · exact h

theorem execPkpresRise {t : State} (ht : execPkpresRise s = .next t) : t.ReportLaw := by
  cases ht
  split
  · exact h
  · exact (h.withPins _).takeBatteryEdge _

/-! ### The supply and the line reset (R129 to R148, R182) -/

theorem execStartUpSettleEnd {t : State} (ht : execStartUpSettleEnd s = .next t) : t.ReportLaw := by
  cases ht
  split
  · split
    · exact (h.ask _ _).settled
    · exact h.stopStartUp.settled
  · exact h

/-- A front operation that the supply or an LRST ends takes a consumption write's image with it (R22, R36, R37). -/
theorem flushFront : s.flushFront.ReportLaw := by
  unfold State.flushFront
  dsimp only
  split
  case h_5 => exact h.withConsumption none
  all_goals exact h.of_frame ⟨rfl, rfl⟩

theorem lineFront : s.lineFront.ReportLaw := by
  unfold State.lineFront
  dsimp only
  split
  case h_5 => exact h.withConsumption none
  all_goals exact h.of_frame ⟨rfl, rfl⟩

theorem enterFlushing : s.enterFlushing.ReportLaw := by
  have begun : s.flushControl.ReportLaw := h.of_frame ⟨rfl, rfl⟩
  exact settled (begun.flushFront.of_frame ⟨rfl, rfl⟩)

theorem execSupgoodFall {t : State} (ht : execSupgoodFall s = .next t) : t.ReportLaw := by
  have low := h.withPins { s.pins with supgood := false }
  cases ht
  split
  · dsimp only
    split
    · exact low.stopStartUp.settled
    · exact low.enterFlushing
    · exact low.enterFlushing
    · exact low
    · exact settled (low.of_frame ⟨rfl, rfl⟩)
  · exact h

theorem execSupgoodRise {t : State} (ht : execSupgoodRise s = .next t) : t.ReportLaw := by
  have high := h.withPins { s.pins with supgood := true }
  cases ht
  split
  · exact h
  · dsimp only
    split
    case h_5 => exact high.beginRecovery.settled
    all_goals exact high

theorem execRsvgoodFall {t : State} (ht : execRsvgoodFall s = .next t) : t.ReportLaw := by
  have low := h.withPins { s.pins with rsvgood := false }
  cases ht
  split
  · dsimp only
    split
    case h_4 => exact settled (low.of_frame ⟨rfl, rfl⟩)
    all_goals exact low
  · exact h

theorem execRsvgoodRise {t : State} (ht : execRsvgoodRise s = .next t) : t.ReportLaw := by
  cases ht
  split
  · exact h
  · exact h.withPins _

theorem beginLineReset : s.beginLineReset.ReportLaw := by
  have marked : (s.lineControl (s.queue.entries.any Entry.withdrawable)).ReportLaw := h.of_frame ⟨rfl, rfl⟩
  exact (((marked.lineFront.withdraw.withQueue _).withMedia _).lineProbeNext _).settled

theorem execLrst {t : State} (ht : execLrst s = .next t) : t.ReportLaw := by
  cases ht
  split
  case h_1 => exact h.beginLineReset
  all_goals exact h

end State.ReportLaw

/-! ### The obligation -/

theorem State.ReportLaw.powerOn (levels : LineLevels) (free : Nat) (pending : List Instr) :
    (State.powerOn levels free pending).ReportLaw :=
  ReportMemory.powerOn_lawful _

/-- Every command keeps the law. -/
theorem State.ReportLaw.exec {c : Instr} {s t : State} (h : s.ReportLaw) (ht : exec c s = .next t) : t.ReportLaw := by
  cases c with
  | powerOn levels => cases ht; exact .powerOn levels s.free s.pending
  | startUpSettleEnd => exact h.execStartUpSettleEnd ht
  | read => cases ht; exact h.takeOperation .read
  | program => cases ht; exact h.takeOperation .program
  | erase => cases ht; exact h.takeOperation .erase
  | status => exact h.execStatus ht
  | reset => exact h.execReset ht
  | unknownOperationByte byte => exact h.execUnknownOperationByte ht
  | addressByte byte => exact h.execAddressByte ht
  | dataByte byte => exact h.execDataByte ht
  | readStrobe => exact h.execReadStrobe ht
  | endStrobe => exact h.execEnd ht
  | commandTransferEnd die => exact h.execCommandTransferEnd ht
  | mrdySeenHigh die => exact h.execMrdySeenHigh ht
  | readoutEnd die page => exact h.execReadoutEnd ht
  | mediaOperationComplete die status => exact h.execMediaOperationComplete ht
  | dieTimeout die => exact h.execDieTimeout ht
  | ffallRise => exact h.execFfallRise ht
  | ffallFall => exact h.execFfallFall ht
  | fimpRise => exact h.execFimpRise ht
  | fimpFall => exact h.execFimpFall ht
  | mergeTimerExpiry => exact h.execMergeTimerExpiry ht
  | settleTimerExpiry => exact h.execSettleTimerExpiry ht
  | ceilingTimerExpiry => exact h.execCeilingTimerExpiry ht
  | qpulseRise qdir => cases ht; exact h.withGauge _
  | tfreqRise => cases ht; exact h.withGauge _
  | gateEnd => exact h.execGateEnd ht
  | minuteBoundary => exact h.execMinuteBoundary ht
  | chgdoneRise => cases ht; exact h.takeBatteryEdge .chgdone
  | pkemptyRise => cases ht; exact h.takeBatteryEdge .pkempty
  | pkpresFall => exact h.execPkpresFall ht
  | pkpresRise => exact h.execPkpresRise ht
  | supgoodFall => exact h.execSupgoodFall ht
  | supgoodRise => exact h.execSupgoodRise ht
  | rsvgoodFall => exact h.execRsvgoodFall ht
  | rsvgoodRise => exact h.execRsvgoodRise ht
  | lrst => exact h.execLrst ht
  | tick => cases ht; exact h.of_frame ⟨rfl, rfl⟩

/-- Settles O51: every command keeps the law. Report Memory changes only by its own operations, each of which leaves the
ring lawful (Laws/Report.lean), and an apply, which changes the mask, evaluates ATTN anew
(`State.ReportLaw.laterApply`, `State.wholeApply_reportLaw`). -/
theorem reportLawIsKept : Obligations.ReportLawIsKept :=
  fun _ _ h ht => step_keeps (fun _ _ h => h.of_frame ⟨rfl, rfl⟩) (fun _ _ _ h ht => h.exec ht) ht h

end Sys2Proof.Machine
end

section
/-! Report Memory (08): how a record joins the ring, how a refusal is recorded or coalesced, and how a consumption write
releases records (R152 to R157, R164). -/

namespace Sys2Proof.Machine

/-! ### The record that a number names -/

/-- No number stands twice in the ring. -/
theorem RingLaw.numbers_nodup {ring : List Record} {next : Tick} {slots : Slots} (h : RingLaw ring next slots) :
    (ring.map Record.number).Nodup := by
  rw [List.Nodup, List.pairwise_map, List.pairwise_iff_getElem]
  intro i j hi hj hij same
  have place := h.number_lt (List.getElem?_eq_getElem hi) (List.getElem?_eq_getElem hj) same
  omega

/-- A change of the record that has a number is a change of that record alone. -/
theorem RingLaw.map_numbered {older younger : List Record} {x : Record} {next : Tick} {slots : Slots}
    (h : RingLaw (older ++ x :: younger) next slots) (f : Record → Record) :
    (older ++ x :: younger).map (fun z => if z.number = x.number then f z else z) = older ++ f x :: younger := by
  have distinct := h.numbers_nodup
  rw [List.map_append, List.map_cons, List.nodup_middle, List.nodup_cons, List.mem_append] at distinct
  obtain ⟨elsewhere, -⟩ := distinct
  have unchanged {l : List Record} (hl : x.number ∉ l.map Record.number) :
      l.map (fun z => if z.number = x.number then f z else z) = l :=
    (List.map_congr_left fun z hz => if_neg fun (same : z.number = x.number) =>
      hl (same ▸ List.mem_map_of_mem hz)).trans (List.map_id l)
  rw [List.map_append, List.map_cons, if_pos rfl, unchanged (fun hx => elsewhere (.inl hx)),
    unchanged (fun hx => elsewhere (.inr hx))]

/-! ### A recorded refusal (R155) -/

section Refuse

variable {r : ReportMemory} {cause : RecordedCause} (mask : BitVec 16) (op : OpKind) (row : BitVec 24)
  (absolute : Bool) (stamp : Tick)

/-- The record of a refusal that is the first of its cause since the slot became empty. -/
def RefusalRecord.first (cause : RecordedCause) (op : OpKind) (row : BitVec 24) (absolute : Bool) (stamp : Tick) :
    RefusalRecord :=
  { cause := cause, firstOp := op, firstRow := row, firstAbsolute := absolute, lastOp := op, lastRow := row
    lastTick := stamp }

/-- With the slot empty a record is appended, and the slot names it. -/
theorem ReportMemory.refuse_of_empty (h : r.slots.get cause = none) :
    r.refuse mask cause op row absolute stamp =
      { r.append mask stamp (.refusal (.first cause op row absolute stamp)) with
        slots := (r.append mask stamp (.refusal (.first cause op row absolute stamp))).slots.set cause
          (some r.next) } := by
  rw [ReportMemory.refuse, h]
  rfl

/-- The record that the slot names takes the repeat. -/
theorem ReportMemory.refuse_of_named {older younger : List Record} {x : Record} {y : RefusalRecord} (hl : r.Lawful mask)
    (hr : r.ring = older ++ x :: younger) (hx : x.payload = .refusal y) (hy : y.cause = cause) :
    r.refuse mask cause op row absolute stamp = { r with
      ring := older ++
        { x with count := min 65535 (x.count + 1)
                 payload := .refusal { y with lastOp := op, lastRow := row, lastTick := stamp } } :: younger } := by
  have named : r.slots.get cause = some x.number := (hl.slots cause x.number).2 ⟨x, by simp [hr], rfl, y, hx, hy⟩
  have ring := hl.ring
  rw [hr] at ring
  rw [ReportMemory.refuse, named]
  dsimp only
  rw [hr, ring.map_numbered, coalesce, hx]
  rfl

end Refuse

/-- Settles O11: an append by its law (`ReportMemory.append_spec`), a recorded refusal by what its cause's slot holds. -/
theorem refusalIsRecordedOrCoalesced : Obligations.RefusalIsRecordedOrCoalesced := by
  refine ⟨fun r mask stamp payload hl => ReportMemory.append_spec hl stamp payload, fun payload => ?code,
    fun s payload => rfl, fun r mask cause op row absolute stamp hl => ⟨fun hempty => ?recorded,
    fun older younger x y hr hx hy => ReportMemory.refuse_of_named mask op row absolute stamp hl hr hx hy⟩⟩
  case code => cases payload <;> rfl
  case recorded =>
    obtain ⟨ring, next, -⟩ :=
      ReportMemory.append_spec hl stamp (.refusal (.first cause op row absolute stamp))
    rw [ReportMemory.refuse_of_empty mask op row absolute stamp hempty]
    refine ⟨ring, next, ?_, _, rfl, fun c hc => ?_⟩
    · rw [Slots.get_set, if_pos rfl]
    · rw [Slots.get_set, if_neg hc]
      rfl

/-! ### Which records a consumption write releases (R157) -/

section Release

variable {r : ReportMemory} {through : Tick}

theorem ReportMemory.releaseCount_of_empty (h : r.ring = []) : r.releaseCount through = 0 := by
  rw [ReportMemory.releaseCount, h]

variable {oldest : Record} {rest : List Record} (h : r.ring = oldest :: rest)
include h

/-- The number lies in the ring: every record up to it. -/
theorem ReportMemory.releaseCount_of_held (hd : (through - oldest.number).toNat < r.ring.length) :
    r.releaseCount through = (through - oldest.number).toNat + 1 := by
  rw [h] at hd
  rw [ReportMemory.releaseCount, h]
  exact if_pos hd

/-- The number lies beyond the ring: every record. -/
theorem ReportMemory.releaseCount_of_beyond (hl : r.ring.length ≤ (through - oldest.number).toNat)
    (hd : (through - oldest.number).toNat < 2147483648) : r.releaseCount through = r.ring.length := by
  rw [h] at hl
  rw [ReportMemory.releaseCount, h]
  dsimp only
  rw [if_neg (Nat.not_lt.2 hl), if_pos hd]

/-- The number lies before the ring: none, as the ring is shorter than half the numbers. -/
theorem ReportMemory.releaseCount_of_before (hl : r.ring.length ≤ 256)
    (hd : 2147483648 ≤ (through - oldest.number).toNat) : r.releaseCount through = 0 := by
  rw [h] at hl
  rw [ReportMemory.releaseCount, h]
  dsimp only
  rw [if_neg (by omega), if_neg (by omega)]

end Release

/-- What a release leaves: the slots name the records that stay. -/
theorem ReportMemory.release_slots {r : ReportMemory} {mask : BitVec 16} (h : r.Lawful mask) (through : Tick)
    (c : RecordedCause) (number : Tick) : (r.release mask through).slots.get c = some number ↔
      ∃ x ∈ r.ring.drop (r.releaseCount through), x.number = number ∧ x.refusalOf c :=
  (h.ring.drop _).slots c number

/-! ### END of a consumption write (R156) -/

section Consumption

variable {s : State} {op : Translated} {next page : Nat} {image : Page}

theorem exec_endStrobe_consumption (hs : s.control.state = .service) (hf : s.front.state = .receiving op next)
    (hp : op.path = .report page) : exec .endStrobe s = .next s.endConsumption := by
  simp [exec, execEnd, State.not_frontIgnored_of_service hs, hf, hp]

/-- With the tag of an acknowledgement the records through S are released. -/
theorem State.endConsumption_tagged (hi : s.report.consumption = some image) (ht : readField image 4 2 = 0x5A3C) :
    s.endConsumption = { s with
      front := { s.front with state := .idle, fail := false, posted := false }
      report := ReportMemory.release { s.report with consumption := none } s.control.settings.mask
        (BitVec.ofNat 32 (readField image 0 4)) } := by
  unfold State.endConsumption
  rw [hi]
  exact if_pos ht

/-- With another tag the write is refused with cause ADDRESS. -/
theorem State.endConsumption_untagged (hi : s.report.consumption = some image) (ht : readField image 4 2 ≠ 0x5A3C) :
    s.endConsumption = { s with
      front := { s.front with
        state := .idle, refused := true
        counters := { s.front.counters with address := min 65535 (s.front.counters.address + 1) } }
      report := ReportMemory.refuse { s.report with consumption := none } s.control.settings.mask .address .program
        0xE00001#24 false s.tick } := by
  unfold State.endConsumption
  rw [hi]
  exact if_neg ht

end Consumption

/-- Settles O16: the tag decides between the two ends, and d between the three counts of released records. -/
theorem consumptionWritesRelease : Obligations.ConsumptionWritesRelease := by
  refine ⟨fun s op next page image hs hf hp hi => ?ends, fun r mask through hl =>
    ⟨r.releaseCount through, rfl, rfl, rfl, ReportMemory.release_slots hl through,
      ReportMemory.releaseCount_of_empty, fun oldest rest hr => ?counts⟩⟩
  case ends =>
    rw [exec_endStrobe_consumption hs hf hp]
    exact ⟨fun ht => congrArg _ (State.endConsumption_tagged hi ht),
      fun ht => congrArg _ (State.endConsumption_untagged hi ht)⟩
  case counts =>
    exact ⟨ReportMemory.releaseCount_of_held hr, ReportMemory.releaseCount_of_beyond hr,
      ReportMemory.releaseCount_of_before hr hl.length⟩

end Sys2Proof.Machine
end

section
/-! The pages of the report window (08): the summary page's columns, and the ring page's slots and spare area (R159 to R162,
R189, 10_formats.md 10.5). -/

namespace Sys2Proof.Machine

/-! ### Bytes in parts -/

/-- The bytes of a field decide what it reads as. -/
theorem bytesField_congr {a b : List Byte} {c d n : Nat} (h : ∀ k, k < n → a[c + k]? = b[d + k]?) :
    bytesField a c n = bytesField b d n := by
  induction n generalizing c d with
  | zero => rfl
  | succ n ih =>
    have first : a[c]? = b[d]? := h 0 (Nat.succ_pos n)
    have rest : bytesField a (c + 1) n = bytesField b (d + 1) n := ih fun k hk => by
      rw [Nat.add_right_comm c, Nat.add_right_comm d]
      exact h (k + 1) (Nat.succ_lt_succ hk)
    rw [bytesField, bytesField, rest, List.getD_eq_getElem?_getD, List.getD_eq_getElem?_getD, first]

/-- The i-th part begins where the widths of the parts before it end. -/
theorem getElem?_flatten_part {parts : List (List Byte)} {i k : Nat} {part : List Byte} (h : parts[i]? = some part)
    (hk : k < part.length) (rest : List Byte) :
    (parts.flatten ++ rest)[((parts.map List.length).take i).sum + k]? = part[k]? := by
  induction parts generalizing i with
  | nil => simp at h
  | cons a parts ih =>
    rw [List.flatten_cons, List.append_assoc]
    cases i with
    | zero =>
      obtain rfl : a = part := by simpa using h
      simp [List.getElem?_append_left hk]
    | succ i =>
      have later := ih (i := i) (by simpa using h)
      rw [List.map_cons, List.take_succ_cons, List.sum_cons, Nat.add_assoc,
        List.getElem?_append_right (Nat.le_add_right _ _), Nat.add_sub_cancel_left]
      exact later

theorem bytesField_tick (t : Tick) : bytesField (leBytes 4 t.toNat) 0 4 = t.toNat := by
  rw [bytesField_leBytes]
  exact Nat.mod_eq_of_lt t.isLt

/-! ### The summary page (R160, R161) -/

/-- The fields of the summary page in the order of their columns, each with its bytes. -/
def State.summaryParts (s : State) : List (List Byte) :=
  [[BitVec.ofNat 8 s.control.state.code], [BitVec.ofNat 8 s.drop.state.code],
   [packed .summaryFlags 0x80#8
     (flagBit 0 s.drop.hold + flagBit 1 (!s.control.noteUsable) + flagBit 2 s.control.startUpPending +
      flagBit 3 s.gauge.derived.soc.isSome + flagBit 4 s.gauge.derived.minutes.isSome +
      flagBit 5 s.gauge.stale + flagBit 6 s.gauge.outOfRange)],
   optBytes 1 s.control.profilePage, leBytes 4 s.drop.counter.toNat, leBytes 4 s.drop.total.toNat,
   leBytes 1 s.queue.entries.length, leBytes 1 s.queue.postedCount, leBytes 1 s.queue.awaitingCount,
   leBytes 1 s.limit, leBytes 1 s.queue.failedRows.length,
   [BitVec.ofNat 8 (s.dieCode 0)], [BitVec.ofNat 8 (s.dieCode 1)], [BitVec.ofNat 8 (s.dieCode 2)],
   [BitVec.ofNat 8 (s.dieCode 3)], [BitVec.ofNat 8 s.gauge.state.code], [BitVec.ofNat 8 s.gauge.derived.level.code],
   optBytes 1 s.gauge.derived.soc, [signedByte s.gauge.temperature], blankBytes 1,
   optBytes 2 s.gauge.derived.minutes, optBytes 2 (s.gauge.derived.remaining.map (· / 16000)),
   leBytes 2 (s.gauge.learned / 16000),
   leBytes 2 s.front.counters.sequence, leBytes 2 s.front.counters.qualifier, leBytes 2 s.front.counters.address,
   leBytes 2 s.front.counters.closed, leBytes 2 s.front.counters.service, leBytes 2 s.front.counters.state,
   leBytes 2 s.media.mediaFailures, blankBytes 2,
   leBytes 4 s.report.oldest.toNat, leBytes 4 s.report.newest.toNat, leBytes 4 s.report.ring.length,
   leBytes 4 s.report.next.toNat, leBytes 4 s.tick.toNat]

/-- The widths of the summary page's fields. -/
def summaryWidths : List Nat :=
  [1, 1, 1, 1, 4, 4, 1, 1, 1, 1, 1, 1, 1, 1, 1, 1, 1, 1, 1, 1, 2, 2, 2, 2, 2, 2, 2, 2, 2, 2, 2, 4, 4, 4, 4, 4]

section Summary

variable (s : State)

theorem State.summaryParts_lengths : s.summaryParts.map List.length = summaryWidths := by
  simp [State.summaryParts, summaryWidths]

theorem State.summaryBytes_eq : s.summaryBytes = s.summaryParts.flatten := by
  unfold State.summaryBytes State.summaryParts
  simp only [List.flatten_cons, List.flatten_nil, List.append_assoc, List.cons_append, List.nil_append, List.append_nil]

theorem State.reportPage_summary : s.reportPage 0 0 = s.summaryParts.flatten ++ blankBytes 4156 := by
  rw [State.reportPage, if_pos rfl, List.drop_zero, State.summaryBytes_eq]

theorem State.reportPage_summary_length : (s.reportPage 0 0).length = 4224 := by
  rw [State.reportPage_summary, List.length_append, List.length_flatten, State.summaryParts_lengths, blankBytes_length]
  rfl

theorem State.summaryParts_flatten_length : s.summaryParts.flatten.length = 68 := by
  rw [List.length_flatten, State.summaryParts_lengths]
  rfl

variable {s} {i c n : Nat} {part : List Byte}

/-- Field i begins at the column that the widths before it give. -/
theorem State.summary_getElem? (hp : s.summaryParts[i]? = some part) (hc : (summaryWidths.take i).sum = c) {k : Nat}
    (hk : k < part.length) : (s.reportPage 0 0)[c + k]? = part[k]? := by
  have place := getElem?_flatten_part hp hk (blankBytes 4156)
  rwa [State.summaryParts_lengths, hc, ← State.reportPage_summary] at place

theorem State.summary_field (hp : s.summaryParts[i]? = some part) (hc : (summaryWidths.take i).sum = c)
    (hn : summaryWidths[i]? = some n) : bytesField (s.reportPage 0 0) c n = bytesField part 0 n := by
  have width : part.length = n := by
    rw [← State.summaryParts_lengths s, List.getElem?_map, hp] at hn
    exact Option.some.inj hn
  refine bytesField_congr fun k hk => ?_
  rw [Nat.zero_add]
  exact State.summary_getElem? hp hc (width ▸ hk)

/-- A field that holds a number shows it, modulo its width. -/
theorem State.summary_number {v : Nat} (hp : s.summaryParts[i]? = some (leBytes n v))
    (hc : (summaryWidths.take i).sum = c) (hn : summaryWidths[i]? = some n) :
    bytesField (s.reportPage 0 0) c n = v % 256 ^ n :=
  (State.summary_field hp hc hn).trans (bytesField_leBytes n v)

theorem State.summary_tick {t : Tick} (hp : s.summaryParts[i]? = some (leBytes 4 t.toNat))
    (hc : (summaryWidths.take i).sum = c) (hn : summaryWidths[i]? = some 4) :
    bytesField (s.reportPage 0 0) c 4 = t.toNat :=
  (State.summary_field hp hc hn).trans (bytesField_tick t)

theorem State.summary_byte {b : Byte} (hp : s.summaryParts[i]? = some [b]) (hc : (summaryWidths.take i).sum = c) :
    (s.reportPage 0 0).getD c 0 = b := by
  have shown := State.summary_getElem? hp hc (k := 0) (Nat.succ_pos _)
  rw [List.getD_eq_getElem?_getD, show c = c + 0 from rfl, shown]
  rfl

theorem State.summary_code {v : Nat} (hp : s.summaryParts[i]? = some [BitVec.ofNat 8 v])
    (hc : (summaryWidths.take i).sum = c) : bytesField (s.reportPage 0 0) c 1 = v % 256 := by
  rw [bytesField_one]
  exact congrArg BitVec.toNat (State.summary_byte hp hc)

end Summary

/-- Seven flags in a byte, each at its bit. -/
theorem sevenFlags_getLsbD (b0 b1 b2 b3 b4 b5 b6 : Bool) :
    let byte := BitVec.ofNat 8 (flagBit 0 b0 + flagBit 1 b1 + flagBit 2 b2 + flagBit 3 b3 + flagBit 4 b4 + flagBit 5 b5 +
      flagBit 6 b6)
    byte.getLsbD 0 = b0 ∧ byte.getLsbD 1 = b1 ∧ byte.getLsbD 2 = b2 ∧ byte.getLsbD 3 = b3 ∧ byte.getLsbD 4 = b4 ∧
      byte.getLsbD 5 = b5 ∧ byte.getLsbD 6 = b6 := by
  revert b0 b1 b2 b3 b4 b5 b6
  decide

theorem State.summary_flags (s : State) :
    let flags := (s.reportPage 0 0).getD 2 0
    flags.getLsbD 0 = decide (s.drop.state ≠ .calm) ∧ flags.getLsbD 1 = !s.control.noteUsable ∧
      flags.getLsbD 2 = s.control.startUpPending ∧ flags.getLsbD 3 = s.gauge.derived.soc.isSome ∧
      flags.getLsbD 4 = s.gauge.derived.minutes.isSome ∧ flags.getLsbD 5 = s.gauge.stale ∧
      flags.getLsbD 6 = s.gauge.outOfRange := by
  dsimp only
  rw [State.summary_byte (i := 2) (c := 2) rfl rfl, packed_getLsbD _ (by decide), packed_getLsbD _ (by decide),
    packed_getLsbD _ (by decide), packed_getLsbD _ (by decide), packed_getLsbD _ (by decide),
    packed_getLsbD _ (by decide), packed_getLsbD _ (by decide)]
  exact sevenFlags_getLsbD _ _ _ _ _ _ _

/-- A die position shows its state, or NOT_INSTALLED beyond the installed count (R64). -/
theorem State.summary_die (s : State) (d : Die) :
    bytesField (s.reportPage 0 0) (17 + d.val) 1 = if d.val < s.control.installed then
      (match s.die d with | .idle => 0 | .busy _ => 1 | .offline => 2) else 3 := by
  have shown : bytesField (s.reportPage 0 0) (17 + d.val) 1 = s.dieCode d % 256 := by
    fin_cases d
    · exact State.summary_code (i := 11) rfl rfl
    · exact State.summary_code (i := 12) rfl rfl
    · exact State.summary_code (i := 13) rfl rfl
    · exact State.summary_code (i := 14) rfl rfl
  rw [shown, State.dieCode, State.isInstalled]
  simp only [decide_eq_true_eq]
  split
  · cases s.die d <;> rfl
  · rfl

/-- The columns that no value takes read 0xFF (R160). -/
theorem State.summary_blank (s : State) {x : Nat} (h : x = 25 ∨ x = 46 ∨ x = 47 ∨ 68 ≤ x ∧ x < 4224) :
    (s.reportPage 0 0)[x]? = some 0xFF#8 := by
  rcases h with rfl | rfl | rfl | ⟨h68, hx⟩
  · exact State.summary_getElem? (i := 19) (c := 25) (k := 0) rfl rfl (by decide)
  · exact State.summary_getElem? (i := 30) (c := 46) (k := 0) rfl rfl (by decide)
  · exact State.summary_getElem? (i := 30) (c := 46) (k := 1) rfl rfl (by decide)
  · have length := s.summaryParts_flatten_length
    rw [State.reportPage_summary, List.getElem?_append_right (by omega), blankBytes, List.getElem?_replicate,
      if_pos (by omega)]

/-! ### The numbers of the oldest and the newest record (R161) -/

theorem ReportMemory.oldest_eq (r : ReportMemory) :
    r.oldest = (match r.ring.head? with | none => r.next | some x => x.number) := by
  unfold ReportMemory.oldest
  cases r.ring <;> rfl

theorem ReportMemory.newest_eq (r : ReportMemory) :
    r.newest = (match r.ring.getLast? with | none => r.next - 1 | some x => x.number) := by
  unfold ReportMemory.newest
  cases r.ring.getLast? <;> rfl

/-! ### The ring page (R162) -/

/-- What follows the slots of the records shown: the empty slots, and the spare area with their number, the first sequence
number and its blank rest. -/
def ReportMemory.ringTail (r : ReportMemory) : List (List Byte) :=
  [blankBytes (32 * (128 - min 128 r.ring.length)), leBytes 2 (min 128 r.ring.length), leBytes 4 r.oldest.toNat,
   blankBytes 122]

section Ring

variable (r : ReportMemory)

theorem ReportMemory.ringBytes_eq :
    r.ringBytes = ((r.ring.take 128).map Record.bytes).flatten ++ r.ringTail.flatten := by
  simp [ReportMemory.ringBytes, ReportMemory.ringTail, List.flatMap_def]

theorem ReportMemory.slots_length :
    ((r.ring.take 128).map Record.bytes).flatten.length = 32 * min 128 r.ring.length := by
  rw [← List.flatMap_def, flatMap_bytes_length, List.length_take]

theorem ReportMemory.ringBytes_length : r.ringBytes.length = 4224 := by
  rw [ReportMemory.ringBytes_eq, List.length_append, ReportMemory.slots_length]
  simp [ReportMemory.ringTail]
  omega

/-- A record shown takes its slot of 32 bytes. -/
theorem ReportMemory.ringBytes_slot {i j : Nat} {x : Record} (hi : i < 128) (hx : r.ring[i]? = some x) (hj : j < 32) :
    r.ringBytes[32 * i + j]? = x.bytes[j]? := by
  have shown : ((r.ring.take 128).map Record.bytes)[i]? = some x.bytes := by
    rw [List.getElem?_map, List.getElem?_take_of_lt hi, hx]
    rfl
  have widths : ((r.ring.take 128).map Record.bytes).map List.length =
      List.replicate (r.ring.take 128).length 32 := by
    rw [List.map_map, List.eq_replicate_iff]
    exact ⟨by simp, fun n hn => by obtain ⟨y, -, rfl⟩ := List.mem_map.1 hn; exact (Record.bytes_spec y).1⟩
  have place := getElem?_flatten_part shown (k := j) (by rw [(Record.bytes_spec x).1]; exact hj) r.ringTail.flatten
  have before : i ≤ (r.ring.take 128).length := by
    have inside := (List.getElem?_eq_some_iff.1 hx).1
    rw [List.length_take]
    omega
  rwa [widths, List.take_replicate, Nat.min_eq_left before, List.sum_replicate, smul_eq_mul, Nat.mul_comm,
    ← ReportMemory.ringBytes_eq] at place

theorem ReportMemory.ringTail_lengths : r.ringTail.map List.length = [32 * (128 - min 128 r.ring.length), 2, 4, 122] := by
  simp [ReportMemory.ringTail]

variable {r} {i c : Nat} {part : List Byte}

/-- A part of the tail begins at the column that the slots shown and the parts before it give. -/
theorem ReportMemory.ringBytes_tail (hp : r.ringTail[i]? = some part)
    (hc : 32 * min 128 r.ring.length + ((r.ringTail.map List.length).take i).sum = c) {k : Nat} (hk : k < part.length) :
    r.ringBytes[c + k]? = part[k]? := by
  have place := getElem?_flatten_part hp hk []
  rw [List.append_nil] at place
  rw [ReportMemory.ringBytes_eq, List.getElem?_append_right (by rw [ReportMemory.slots_length]; omega),
    ReportMemory.slots_length, ← hc, Nat.add_assoc, Nat.add_sub_cancel_left, place]

theorem ReportMemory.ringBytes_tailField (hp : r.ringTail[i]? = some part)
    (hc : 32 * min 128 r.ring.length + ((r.ringTail.map List.length).take i).sum = c) :
    bytesField r.ringBytes c part.length = bytesField part 0 part.length := by
  refine bytesField_congr fun k hk => ?_
  rw [Nat.zero_add]
  exact ReportMemory.ringBytes_tail hp hc hk

variable (r)

/-- The spare area begins at column 4096 with the number of records shown. -/
theorem ReportMemory.ringBytes_shown : bytesField r.ringBytes 4096 2 = min 128 r.ring.length := by
  have shown := ReportMemory.ringBytes_tailField (r := r) (i := 1) (c := 4096) rfl (by
    rw [ReportMemory.ringTail_lengths]; simp; omega)
  rw [leBytes_length] at shown
  rw [shown, bytesField_leBytes]
  exact Nat.mod_eq_of_lt (by omega)

theorem ReportMemory.ringBytes_first : bytesField r.ringBytes 4098 4 = r.oldest.toNat := by
  have shown := ReportMemory.ringBytes_tailField (r := r) (i := 2) (c := 4098) rfl (by
    rw [ReportMemory.ringTail_lengths]; simp; omega)
  rw [leBytes_length] at shown
  rw [shown, bytesField_tick]

/-- The slots of no record, and the rest of the spare area, read 0xFF. -/
theorem ReportMemory.ringBytes_blank {x : Nat}
    (h : 32 * min 128 r.ring.length ≤ x ∧ x < 4096 ∨ 4102 ≤ x ∧ x < 4224) : r.ringBytes[x]? = some 0xFF#8 := by
  have blank {n k : Nat} (hk : k < n) : (blankBytes n)[k]? = some 0xFF#8 := by
    rw [blankBytes, List.getElem?_replicate, if_pos hk]
  rcases h with ⟨hm, hx⟩ | ⟨hm, hx⟩
  · obtain ⟨k, rfl⟩ := Nat.exists_eq_add_of_le hm
    have inside : k < 32 * (128 - min 128 r.ring.length) := by omega
    rw [ReportMemory.ringBytes_tail (i := 0) (c := 32 * min 128 r.ring.length) rfl rfl (by rwa [blankBytes_length]),
      blank inside]
  · obtain ⟨k, rfl⟩ := Nat.exists_eq_add_of_le hm
    have inside : k < 122 := by omega
    rw [ReportMemory.ringBytes_tail (i := 3) rfl (by rw [ReportMemory.ringTail_lengths]; simp; omega)
      (by rwa [blankBytes_length]), blank inside]

end Ring

/-! ### The obligation -/

theorem State.reportPage_column (s : State) (page column : Nat) :
    s.reportPage page column = (s.reportPage page 0).drop column := by
  unfold State.reportPage
  split
  · rfl
  split
  · rfl
  · rw [blankBytes, blankBytes, List.drop_replicate, Nat.sub_zero]

theorem State.reportPage_blank (s : State) {page : Nat} (h : 2 ≤ page) :
    s.reportPage page 0 = List.replicate 4224 0xFF#8 := by
  unfold State.reportPage
  rw [if_neg (by omega), if_neg (by omega)]
  rfl

/-- Settles O47: each value of the summary page is the field at its place of `State.summaryParts`, whose widths give its
column. -/
theorem reportPagesShowTheState : Obligations.ReportPagesShowTheState := by
  refine ⟨fun s page column => ⟨s.reportPage_column page column, fun h => s.reportPage_blank h⟩, fun s => ?summary,
    fun s => ?ring⟩
  case ring =>
    exact ⟨s.report.ringBytes_length, s.report.ringBytes_shown,
      s.report.ringBytes_first.trans (congrArg BitVec.toNat s.report.oldest_eq),
      fun x hx => s.report.ringBytes_blank hx, fun i r hi hr j hj => s.report.ringBytes_slot hi hr hj⟩
  case summary =>
    refine ⟨s.reportPage_summary_length, ?serviceState, ?dropState, s.summary_flags, ?profilePage,
      State.summary_tick (i := 4) rfl rfl rfl, State.summary_tick (i := 5) rfl rfl rfl,
      State.summary_number (i := 6) rfl rfl rfl, State.summary_number (i := 7) rfl rfl rfl, ?awaiting,
      State.summary_number (i := 9) rfl rfl rfl, State.summary_number (i := 10) rfl rfl rfl, s.summary_die,
      ?gaugeState, ?level, ?soc, State.summary_byte (i := 18) rfl rfl, ?minutes, ?remaining,
      State.summary_number (i := 22) rfl rfl rfl, State.summary_number (i := 23) rfl rfl rfl,
      State.summary_number (i := 24) rfl rfl rfl, State.summary_number (i := 25) rfl rfl rfl,
      State.summary_number (i := 26) rfl rfl rfl, State.summary_number (i := 27) rfl rfl rfl,
      State.summary_number (i := 28) rfl rfl rfl, State.summary_number (i := 29) rfl rfl rfl, ?oldest, ?newest,
      State.summary_number (i := 33) rfl rfl rfl, State.summary_tick (i := 34) rfl rfl rfl,
      State.summary_tick (i := 35) rfl rfl rfl, fun x hx => s.summary_blank hx⟩
    case serviceState =>
      refine (State.summary_code (i := 0) rfl rfl).trans ?_
      cases s.control.state <;> rfl
    case dropState =>
      refine (State.summary_code (i := 1) rfl rfl).trans ?_
      cases s.drop.state <;> rfl
    case profilePage => exact (State.summary_field (i := 3) rfl rfl rfl).trans (bytesField_optBytes_one _)
    case awaiting =>
      refine (State.summary_number (i := 8) rfl rfl rfl).trans ?_
      simp [HoldQueue.awaitingCount, Entry.isPosted]
    case gaugeState =>
      refine (State.summary_code (i := 15) rfl rfl).trans ?_
      cases s.gauge.state <;> rfl
    case level =>
      refine (State.summary_code (i := 16) rfl rfl).trans ?_
      cases s.gauge.derived.level <;> rfl
    case soc => exact (State.summary_field (i := 17) rfl rfl rfl).trans (bytesField_optBytes_one _)
    case minutes => exact (State.summary_field (i := 20) rfl rfl rfl).trans (bytesField_optBytes_two _)
    case remaining =>
      refine (State.summary_field (i := 21) rfl rfl rfl).trans ((bytesField_optBytes_two _).trans ?_)
      cases s.gauge.derived.remaining <;> rfl
    case oldest =>
      exact (State.summary_tick (i := 31) rfl rfl rfl).trans (congrArg BitVec.toNat s.report.oldest_eq)
    case newest =>
      exact (State.summary_tick (i := 32) rfl rfl rfl).trans (congrArg BitVec.toNat s.report.newest_eq)

end Sys2Proof.Machine
end

section
/-! Profile pages (09): what the tests make of an image, and what an apply leaves of the settings and the gauge (R123, R164,
R173 to R175, R181, R183). -/

namespace Sys2Proof.Machine

/-! ### The tests (R173) -/

theorem clampNat_zero (largest n : Nat) : clampNat 0 largest n = min largest n := Nat.zero_max _

theorem DerateTable.ascending_iff (t : DerateTable) : t.ascending = true ↔
    t.p1.temperature < t.p2.temperature ∧ t.p2.temperature < t.p3.temperature ∧
      t.p3.temperature < t.p4.temperature := by
  simp [DerateTable.ascending, and_assoc]

section Tested

variable {page : Page}

theorem testProfile_unchecked (h : profilePageOk page = false) : testProfile page = .rejected .check false :=
  if_neg (by simp [h])

/-- A page that passes its check is decoded and clamped, and the table test has the last word. -/
theorem testProfile_checked (h : profilePageOk page = true) : testProfile page =
    let profile := clampProfile (decodeProfile page)
    if profile.live.derate.ascending then .accepted profile (decide (profile ≠ decodeProfile page))
    else .rejected .table (decide (profile ≠ decodeProfile page)) :=
  if_pos h

end Tested

/-! ### The gauge at an apply (R111, R113, R123) -/

/-- T stands at T_1 of the table in force until the first reading. -/
theorem Gauge.followTable_eq (g : Gauge) (table : DerateTable) : g.followTable table = { g with
    temperature := if g.firstReading then g.temperature else table.p1.temperature } := by
  unfold Gauge.followTable
  split <;> rfl

theorem Gauge.laterApply_eq (g : Gauge) (v : Settings) : g.laterApply v =
    if v.nominal * 16000 = g.nominalCu then
      { g with temperature := if g.firstReading then g.temperature else v.derate.p1.temperature }
    else { g with
      nominalCu := v.nominal * 16000
      learned := clampLearned (v.nominal * 16000) g.learned
      remaining := min (clampLearned (v.nominal * 16000) g.learned) g.remaining
      temperature := if g.firstReading then g.temperature else v.derate.p1.temperature } := by
  rw [Gauge.laterApply, Gauge.followTable_eq, Gauge.changeNominal]
  split <;> rfl

theorem Gauge.startUpApply_eq (g : Gauge) (v : Settings) : g.startUpApply v = { g with
    nominalCu := v.nominal * 16000
    learned := v.nominal * 16000
    remaining := min (v.nominal * 16000) g.remaining
    weight := v.weight
    temperature := if g.firstReading then g.temperature else v.derate.p1.temperature
    net := if g.tallying then satNet (satNet (g.net + v.weight * g.rawDischarge) - v.weight * g.rawCharge) else g.net
    anchor := if g.tallying then g.anchor && decide (g.rawCharge = 0) else g.anchor
    rawDischarge := if g.tallying then 0 else g.rawDischarge
    rawCharge := if g.tallying then 0 else g.rawCharge
    tallying := false } := by
  rw [Gauge.startUpApply, Gauge.convertTallies_eq, Gauge.followTable_eq]

/-! ### The two applies (R164, R174, R175) -/

section Applies

variable (s : State) (p : ProfileImage) (page : Option Nat)

/-- An apply outside start-up compares the start-up fields and leaves those in force. -/
theorem State.laterApply_eq : s.laterApply p page =
    let put := s.withProfile p s.control.settings.windows s.control.installed page s.report.masked
    ({ put with
        control := { put.control with
          startUpPending := decide (p.installed ≠ s.control.installed ∨ p.rres ≠ s.control.rres) }
        gauge := s.gauge.laterApply p.live },
      (settleWindows s.control.installed s.control.settings.windows p.live.windows []).2) := by
  rw [Bool.decide_or]
  rfl

/-- The start-up apply puts the start-up fields in force, settles the windows against the defaults and ends the masking. -/
theorem State.startUpApply_eq : s.startUpApply p page =
    let put := s.withProfile p defaultWindows p.installed page false
    ({ put with
        control := { put.control with installed := p.installed, rres := p.rres, startUpPending := false }
        gauge := s.gauge.startUpApply p.live },
      (settleWindows p.installed defaultWindows p.live.windows []).2) :=
  rfl

end Applies

/-! ### The apply of an image and its PROFILE record (R179, R181, R183) -/

section Images

variable (s : State) {image : Page} (page : Nat)

section Accepted

variable {p : ProfileImage} {clamped : Bool} (h : testProfile image = .accepted p clamped)
include h

theorem State.serviceApply_accepted : s.serviceApply image page =
    (s.laterApply p (some page)).1.profileApplied .service page p.generation (s.laterApply p (some page)).2 clamped
      none := by
  rw [State.serviceApply, h]
  rfl

theorem State.applyAtStartUp_accepted (failed : Nat) : s.applyAtStartUp (.found page image failed) =
    (s.startUpApply p (some page)).1.profileApplied .startUp page p.generation (s.startUpApply p (some page)).2 clamped
      (some failed) := by
  rw [State.applyAtStartUp, h]
  rfl

theorem State.applyAtLineReset_accepted (failed : Nat) : s.applyAtLineReset (.found page image failed) =
    (s.laterApply p (some page)).1.profileApplied .lineReset page p.generation (s.laterApply p (some page)).2 clamped
      (some failed) := by
  rw [State.applyAtLineReset, h]
  rfl

end Accepted

section Rejected

variable {reason : RejectReason} {clamped : Bool} (h : testProfile image = .rejected reason clamped)
include h

theorem State.serviceApply_rejected :
    s.serviceApply image page = s.profileRejected .service page reason clamped none := by
  rw [State.serviceApply, h]
  rfl

/-- A rejected image leaves start-up with the defaults (R175). -/
theorem State.applyAtStartUp_rejected (failed : Nat) : s.applyAtStartUp (.found page image failed) =
    (s.startUpApply defaultProfile none).1.profileRejected .startUp page reason clamped (some failed) := by
  rw [State.applyAtStartUp, h]
  rfl

theorem State.applyAtLineReset_rejected (failed : Nat) : s.applyAtLineReset (.found page image failed) =
    s.profileRejected .lineReset page reason clamped (some failed) := by
  rw [State.applyAtLineReset, h]
  rfl

end Rejected

end Images

/-- Settles O38: the tests by their stages, then each apply as `State.laterApply_eq` and `State.startUpApply_eq` give it. -/
theorem profilesAreTestedAndApplied : Obligations.ProfilesAreTestedAndApplied := by
  refine ⟨fun page => ?tests, fun s => ?applies⟩
  case tests =>
    intro raw v low point table p rising
    have clampedAs : clampProfile raw = p := by
      simp only [clampProfile, clampSettings, clampNat_zero]
      rfl
    have checked (h : profilePageOk page = true) : testProfile page =
        if p.live.derate.ascending then .accepted p (decide (p ≠ raw)) else .rejected .table (decide (p ≠ raw)) :=
      clampedAs ▸ testProfile_checked h
    have ascends : p.live.derate.ascending = true ↔ rising := table.ascending_iff
    refine ⟨testProfile_unchecked, fun h hr => ?accepted, fun h hr => ?rejected⟩
    case accepted => rw [checked h, if_pos (ascends.2 hr)]
    case rejected => rw [checked h, if_neg (mt ascends.1 hr)]
  case applies =>
    intro temperature later atStart rejectedLater rejectedAtStart defaults
    have appliedLater (p : ProfileImage) (page : Option Nat) :
        s.laterApply p page = (later p page, rejectedLater p) := by
      rw [State.laterApply_eq, Gauge.laterApply_eq]
      rfl
    have appliedAtStart (p : ProfileImage) (page : Option Nat) :
        s.startUpApply p page = (atStart p page, rejectedAtStart p) := by
      rw [State.startUpApply_eq, Gauge.startUpApply_eq]
      rfl
    have defaultsAtStart : (s.startUpApply defaultProfile none).1 = atStart defaults none :=
      congrArg Prod.fst (appliedAtStart defaults none)
    have defaultsLater : (s.laterApply defaultProfile none).1 = later defaults none :=
      congrArg Prod.fst (appliedLater defaults none)
    refine ⟨fun image page p clamped h => ⟨?inService, fun failed => ⟨?startUp, ?lineReset⟩⟩,
      fun image page reason clamped h => ⟨s.serviceApply_rejected page h, fun failed =>
        ⟨?startUpRejected, s.applyAtLineReset_rejected page h failed⟩⟩,
      fun failed => ⟨?startUpEmpty, ?lineResetEmpty⟩, ?startUpUnread, rfl⟩
    case inService => rw [s.serviceApply_accepted page h, appliedLater]
    case startUp => rw [s.applyAtStartUp_accepted page h, appliedAtStart]
    case lineReset => rw [s.applyAtLineReset_accepted page h, appliedLater]
    case startUpRejected => rw [s.applyAtStartUp_rejected page h, defaultsAtStart]
    case startUpEmpty => exact congrArg (State.profileAbsent · .startUp .defaults (some failed)) defaultsAtStart
    case lineResetEmpty => exact congrArg (State.profileAbsent · .lineReset .defaults (some failed)) defaultsLater
    case startUpUnread => exact congrArg (State.profileAbsent · .startUp .notRead none) defaultsAtStart

end Sys2Proof.Machine
end

section
/-! The page checks and the profile record (10_formats.md 10.3; R171, R186, R187): fields and sums as bytes, and every column
that `decodeProfile` reads. -/

namespace Sys2Proof.Machine

/-! ### Fields and sums in bytes (R186) -/

/-- The two bytes of a column and the next, least significant first. -/
def pageWord (page : Page) (c : Nat) : Nat := (readCell page c).toNat + 256 * (readCell page (c + 1)).toNat

section Words

variable (page : Page)

theorem readField_word (c : Nat) : readField page c 2 = pageWord page c := readField_two page c

theorem readField_four (c : Nat) : readField page c 4 = pageWord page c + 65536 * pageWord page (c + 2) := by
  simp only [readField, pageWord, Nat.add_assoc, Nat.reduceAdd]
  omega

theorem wordSum_eq (n : Nat) : wordSum page n = ((List.range n).map fun i => pageWord page (2 * i)).sum % 65536 := by
  rw [wordSum, sumWords_eq]
  simp only [Nat.zero_add]
  rfl

end Words

/-! ### The two checks (R171) -/

theorem profilePageOk_iff (page : Page) :
    profilePageOk page = true ↔ readField page 0 2 = 0x7E31 ∧ wordSum page 64 = 0 := by
  rw [profilePageOk, Bool.and_eq_true, decide_eq_true_iff, decide_eq_true_iff]
  rfl

theorem notePageOk_iff (page : Page) : notePageOk page = true ↔
    readField page 0 2 = 0xB35C ∧ (readField page 2 1 = 1 ∨ readField page 2 1 = 2) ∧ wordSum page 49 = 0 := by
  simp only [notePageOk, Bool.and_eq_true, Bool.or_eq_true, decide_eq_true_iff, and_assoc]
  rfl

/-! ### The list form of a page (log entry 7) -/

/-- A byte that is listed is no 0xFF, so a page that lists any is not erased. -/
theorem Page.Canonical.erased_iff {page : Page} (h : Page.Canonical page) :
    page = [] ↔ ∀ c, c < 4224 → readCell page c = 0xFF#8 := by
  refine ⟨by rintro rfl c -; rfl, fun blank => ?_⟩
  obtain ⟨rising, listed⟩ := (Page.canonical_iff page).1 h
  refine List.eq_nil_iff_forall_not_mem.2 fun ⟨c, b⟩ hm => ?_
  obtain ⟨inside, differs⟩ := listed (c, b) hm
  exact differs ((readCell_of_mem rising hm).symm.trans (blank c inside))

/-! ### The columns of the profile record (10.3) -/

/-- A two's complement byte (R189). -/
theorem toInt_byte (b : Byte) : b.toInt = if b.toNat < 128 then (b.toNat : Int) else (b.toNat : Int) - 256 := by
  rw [BitVec.toInt_eq_toNat_cond]
  split <;> split <;> omega

section Columns

variable (page : Page)

theorem decodePoint_spec (c : Nat) :
    (decodePoint page c).temperature = (if (readCell page c).toNat < 128 then ((readCell page c).toNat : Int)
      else ((readCell page c).toNat : Int) - 256) ∧
    (decodePoint page c).factor = pageWord page (c + 1) :=
  ⟨toInt_byte _, readField_word page _⟩

theorem decodeWindow_spec (w : Nat) :
    (decodeWindow page w).base = pageWord page (42 + 6 * w) ∧
    (decodeWindow page w).extent = pageWord page (44 + 6 * w) ∧
    (decodeWindow page w).enabled = (readCell page (46 + 6 * w)).getLsbD 0 ∧
    (decodeWindow page w).holdEligible = (readCell page (46 + 6 * w)).getLsbD 1 ∧
    (decodeWindow page w).closed = (readCell page (46 + 6 * w)).getLsbD 2 := by
  have extent : 42 + 6 * w + 2 = 44 + 6 * w := by omega
  have flags : 42 + 6 * w + 4 = 46 + 6 * w := by omega
  rw [← extent, ← flags]
  exact ⟨readField_word page _, readField_word page _, rfl, rfl, rfl⟩

theorem decodeProfile_window {w : Nat} {x : Window} (h : (decodeProfile page).live.windows[w]? = some x) :
    x = decodeWindow page w := by
  simp only [decodeProfile, List.getElem?_map, Option.map_eq_some_iff] at h
  obtain ⟨v, hv, rfl⟩ := h
  rw [(List.getElem?_eq_some_iff.1 hv).2.symm, List.getElem_range]

/-- The attention mask has 16 bits, so its two bytes are kept whole. -/
theorem decodeProfile_mask : (decodeProfile page).live.mask.toNat = pageWord page 16 :=
  (Nat.mod_eq_of_lt (readField_lt page 16 2)).trans (readField_word page 16)

end Columns

/-- Settles O50: the checks and the list form by their equivalences, then the record's columns in their order. -/
theorem pagesAreCheckedAndDecoded : Obligations.PagesAreCheckedAndDecoded := by
  intro page cell word sum bit
  have byte (c : Nat) : readField page c 1 = cell c := readField_one page c
  have two (c : Nat) : readField page c 2 = word c := readField_word page c
  refine ⟨fun c => ⟨byte c, two c, readField_four page c⟩, ?profile, ?note, Page.canonical_iff page, fun h c => ?list,
    Page.Canonical.erased_iff, two 2, byte 4, byte 5, rfl, rfl, byte 7, byte 8, byte 9, two 10, two 12, two 14,
    decodeProfile_mask page, two 18, two 20, byte 22, byte 23, two 24, two 26, ?points, two 40, rfl, fun w x h => ?window⟩
  case profile => rw [profilePageOk_iff, two, wordSum_eq]; rfl
  case note => rw [notePageOk_iff, two, byte, wordSum_eq]; rfl
  case list => exact ⟨fun b hm => readCell_of_mem ((Page.canonical_iff page).1 h).1 hm, readCell_of_not_mem⟩
  case points =>
    intro c x hx
    have point : x = decodePoint page c := by
      simp only [List.mem_cons, List.not_mem_nil, or_false, Prod.mk.injEq] at hx
      rcases hx with ⟨rfl, rfl⟩ | ⟨rfl, rfl⟩ | ⟨rfl, rfl⟩ | ⟨rfl, rfl⟩ <;> rfl
    rw [point]
    exact decodePoint_spec page c
  case window =>
    rw [decodeProfile_window page h]
    exact decodeWindow_spec page w

end Sys2Proof.Machine
end

section
/-! Power-on (R169): the state that POWER_ON leaves, and the laws of the queue and of the drops in it. -/

namespace Sys2Proof.Machine

theorem exec_powerOn (levels : LineLevels) (s : State) :
    exec (.powerOn levels) s = .next (State.powerOn levels s.free s.pending) := rfl

section Laws

variable (levels : LineLevels) (free : Nat) (pending : List Instr)

theorem State.SequenceLaw.powerOn : (State.powerOn levels free pending).SequenceLaw where
  stands := rfl
  single := Nat.zero_le 1
  awaited := nofun
  place d := by fin_cases d <;> exact nofun
  flush := nofun
  supply := nofun

theorem State.QueueLaw.powerOn : (State.powerOn levels free pending).QueueLaw where
  rres := defaultProfile_lawful.rres
  posted := (by decide : 0 + 1 ≤ defaultRres)
  length := Nat.zero_le 64
  awaiting := nofun
  front := nofun
  empty _ := rfl
  idle _ := rfl
  scan := nofun
  note := nofun
  sequence := .powerOn levels free pending

theorem State.DropLaw.powerOn : (State.powerOn levels free pending).DropLaw :=
  State.dropLaw_iff.2 (State.accounted_powerOn levels free pending).accounts

end Laws

/-- Settles O3: the blocks of `State.powerOn` with their defaults written out. -/
theorem powerOnSetsEveryBlock : Obligations.PowerOnSetsEveryBlock := fun levels s => exec_powerOn levels s

/-- Settles O4: each law where it is kept says that power-on meets it; those of the queue and of the drops are above. -/
theorem powerOnMeetsEveryLaw : Obligations.PowerOnMeetsEveryLaw :=
  ⟨rfl, fun levels free pending =>
    ⟨.powerOn levels free pending, .powerOn levels free pending, .powerOn levels free pending, .powerOn levels free pending,
      State.failedRowLaw_powerOn levels free pending, .powerOn levels free pending,
      State.dropRecordLaw_powerOn levels free pending, State.commitLaw_powerOn levels free pending,
      .powerOn levels free pending, .powerOn levels free pending⟩⟩

end Sys2Proof.Machine
end

section
/-! The slots of the report ring (08): every field of the eight kinds of record at its offset (R189, 10_formats.md 10.6). -/

namespace Sys2Proof.Machine

/-! ### A list of bytes column by column -/

/-- The bytes hold `part` from column c on. Its simp rules take a composed list apart into the columns of its fields. -/
def HoldsAt (bytes : List Byte) (c : Nat) (part : List Byte) : Prop := ∀ k, k < part.length → bytes[c + k]? = part[k]?

/-- What an optional field of n bytes shows: 0xFF in every byte where it is absent (R189). -/
def shownField (n : Nat) : Option Nat → Nat
  | none => 256 ^ n - 1
  | some x => x % 256 ^ n

section Columns

variable {bytes : List Byte} {c n v : Nat}

@[simp] theorem holdsAt_nil : HoldsAt bytes c [] ↔ True := iff_true_intro nofun

@[simp] theorem holdsAt_append (a b : List Byte) :
    HoldsAt bytes c (a ++ b) ↔ HoldsAt bytes c a ∧ HoldsAt bytes (c + a.length) b := by
  refine ⟨fun h => ⟨fun k hk => ?_, fun k hk => ?_⟩, fun ⟨left, right⟩ k hk => ?_⟩
  · rw [h k (by rw [List.length_append]; omega), List.getElem?_append_left hk]
  · rw [Nat.add_assoc, h (a.length + k) (by rw [List.length_append]; omega),
      List.getElem?_append_right (Nat.le_add_right _ _), Nat.add_sub_cancel_left]
  · rcases Nat.lt_or_ge k a.length with inLeft | past
    · rw [left k inLeft, List.getElem?_append_left inLeft]
    · obtain ⟨j, rfl⟩ := Nat.exists_eq_add_of_le past
      rw [← Nat.add_assoc, right j (by rw [List.length_append] at hk; omega),
        List.getElem?_append_right past, Nat.add_sub_cancel_left]

@[simp] theorem holdsAt_cons (x : Byte) (rest : List Byte) :
    HoldsAt bytes c (x :: rest) ↔ bytes[c]? = some x ∧ HoldsAt bytes (c + 1) rest := by
  have first : HoldsAt bytes c [x] ↔ bytes[c]? = some x :=
    ⟨fun h => h 0 Nat.one_pos, fun h k hk => by rwa [Nat.lt_one_iff.1 hk]⟩
  rw [← List.singleton_append, holdsAt_append, first]
  rfl

theorem getD_of_column {x : Byte} (h : bytes[c]? = some x) : bytes.getD c 0 = x := by
  rw [List.getD_eq_getElem?_getD, h]
  rfl

theorem byte_of_column (h : bytes[c]? = some (BitVec.ofNat 8 v)) : bytesField bytes c 1 = v % 256 := by
  rw [bytesField_one]
  exact congrArg BitVec.toNat (getD_of_column h)

/-- A code that fits its byte reads back. -/
theorem code_of_column (h : bytes[c]? = some (BitVec.ofNat 8 v)) {most : Nat} (hv : v ≤ most)
    (hm : most < 256 := by decide) : bytesField bytes c 1 = v :=
  (byte_of_column h).trans (Nat.mod_eq_of_lt (hv.trans_lt hm))

namespace HoldsAt

theorem field {part : List Byte} (h : HoldsAt bytes c part) (hn : part.length = n) :
    bytesField bytes c n = bytesField part 0 n :=
  bytesField_congr fun k hk => by rw [Nat.zero_add, h k (hn ▸ hk)]

theorem number (h : HoldsAt bytes c (leBytes n v)) : bytesField bytes c n = v % 256 ^ n :=
  (h.field (leBytes_length n v)).trans (bytesField_leBytes n v)

/-- A number that fits its bytes is shown whole. -/
theorem whole (h : HoldsAt bytes c (leBytes n v)) (hv : v < 256 ^ n) : bytesField bytes c n = v :=
  h.number.trans (Nat.mod_eq_of_lt hv)

theorem tick {t : Tick} (h : HoldsAt bytes c (leBytes 4 t.toNat)) : bytesField bytes c 4 = t.toNat := h.whole t.isLt

/-- A count is shown saturated at the largest value of its field (R189). -/
theorem count {largest : Nat} (h : HoldsAt bytes c (leBytes n (narrow largest v))) (hl : largest < 256 ^ n) :
    bytesField bytes c n = min largest v :=
  h.whole ((Nat.min_le_left largest v).trans_lt hl)

theorem blank (h : HoldsAt bytes c (blankBytes n)) {x : Nat} (hc : c ≤ x) (hx : x < c + n) :
    bytes[x]? = some 0xFF#8 := by
  obtain ⟨k, rfl⟩ := Nat.exists_eq_add_of_le hc
  have inside : k < n := by omega
  rw [h k (by rwa [blankBytes_length]), blankBytes, List.getElem?_replicate, if_pos inside]

theorem blank_append {m : Nat} (first : HoldsAt bytes c (blankBytes m)) (rest : HoldsAt bytes (c + m) (blankBytes n)) :
    HoldsAt bytes c (blankBytes (m + n)) := by
  rw [blankBytes, ← List.replicate_append_replicate]
  exact (holdsAt_append _ _).2 ⟨first, (blankBytes_length m).symm ▸ rest⟩

end HoldsAt

theorem bytesField_blank (n : Nat) : bytesField (blankBytes n) 0 n = 256 ^ n - 1 := by
  induction n with
  | zero => rfl
  | succ n ih =>
    have rest : bytesField (blankBytes (n + 1)) (0 + 1) n = bytesField (blankBytes n) 0 n := bytesField_cons _ _ _ _
    have first : ((blankBytes (n + 1)).getD 0 0#8).toNat = 255 := rfl
    have positive : 0 < 256 ^ n := by positivity
    rw [bytesField, rest, first, ih, pow_succ]
    omega

theorem HoldsAt.optional {o : Option Nat} (h : HoldsAt bytes c (optBytes n o)) :
    bytesField bytes c n = shownField n o := by
  rw [h.field (optBytes_length n o)]
  cases o with
  | none => exact bytesField_blank n
  | some v => exact bytesField_leBytes n v

end Columns

/-! ### Bytes of packed codes and flags -/

theorem flagBit_eq (i : Nat) (flag : Bool) : flagBit i flag = 2 ^ i * flag.toNat := by
  cases flag <;> simp [flagBit]

/-- Below the unused bits a packed byte is the value packed. -/
theorem packed_mod (site : UnusedSite) {unused : Byte} {n : Nat} (hn : n ≤ 8) (h : unused.toNat % 2 ^ n = 0)
    (value : Nat) : (packed site unused value).toNat % 2 ^ n = value % 2 ^ n := by
  rw [packed, BitVec.toNat_or, Nat.or_mod_two_pow, BitVec.toNat_and, Nat.and_mod_two_pow, h, Nat.and_zero, Nat.or_zero,
    BitVec.toNat_ofNat, Nat.mod_mod_of_dvd _ (pow_dvd_pow 2 hn)]

section Packed

variable {bytes : List Byte} {c value : Nat} {site : UnusedSite} {unused : Byte}

theorem packed_column (h : bytes[c]? = some (packed site unused value)) {n : Nat} (hn : n ≤ 8)
    (hu : unused.toNat % 2 ^ n = 0) : bytesField bytes c 1 % 2 ^ n = value % 2 ^ n := by
  rw [bytesField_one]
  exact (congrArg (·.toNat % 2 ^ n) (getD_of_column h)).trans (packed_mod site hn hu value)

/-- A flag is the binary digit at its bit. -/
theorem flag_of_digit {i : Nat} {flag : Bool} (h : bytesField bytes c 1 / 2 ^ i % 2 = flag.toNat) :
    (bytes.getD c 0).getLsbD i = flag := by
  rw [bytesField_one] at h
  rw [← BitVec.testBit_toNat, Nat.testBit_eq_decide_div_mod_eq]
  change decide ((bytes.getD c 0#8).toNat / 2 ^ i % 2 = 1) = flag
  rw [h]
  cases flag <;> rfl

end Packed

/-- A sum of flags, each at its own bit, has just the bits whose flags are set. -/
theorem flagSum_testBit (f : Nat → Bool) (n : Nat) :
    let sum := (List.range n).foldl (fun acc w => acc + flagBit w (f w)) 0
    sum < 2 ^ n ∧ ∀ w, sum.testBit w = (decide (w < n) && f w) := by
  induction n with
  | zero => simp
  | succ n ih =>
    obtain ⟨bound, bits⟩ := ih
    simp only [List.range_succ, List.foldl_append, List.foldl_cons, List.foldl_nil, flagBit_eq n]
    set sum := (List.range n).foldl (fun acc w => acc + flagBit w (f w)) 0
    refine ⟨?_, fun w => ?_⟩
    · have digit : 2 ^ n * (f n).toNat ≤ 2 ^ n * 1 := Nat.mul_le_mul_left _ (Bool.toNat_le _)
      rw [pow_succ]
      omega
    · rw [Nat.add_comm, Nat.testBit_two_pow_mul_add _ bound, bits]
      rcases Nat.lt_trichotomy w n with below | rfl | above
      · simp [below, Nat.lt_succ_of_lt below]
      · cases f w <;> simp
      · have outside : (f n).toNat < 2 ^ (w - n) :=
          (Bool.toNat_lt (f n)).trans_le (Nat.le_self_pow (by omega) 2)
        rw [if_neg (by omega), Nat.testBit_lt_two_pow outside, decide_eq_false (by omega), Bool.false_and]

/-! ### The codes fit the bits they are given -/

theorem StartCause.code_le (x : StartCause) : x.code ≤ 4 := by cases x <;> decide

theorem flushNoteCode_le (x : Option FlushNoteOutcome) : flushNoteCode x ≤ 3 := by
  rcases x with _ | x
  · decide
  · cases x <;> decide

theorem BatteryReason.code_le (x : BatteryReason) : x.code ≤ 5 := by cases x <;> decide

theorem Level.code_le (x : Level) : x.code ≤ 3 := by cases x <;> decide

theorem DropKind.code_le (x : DropKind) : x.code ≤ 3 := by cases x <;> decide

theorem CommitFailCause.code_le (x : CommitFailCause) : x.code ≤ 3 := by cases x <;> decide

theorem MediaKind.code_le (x : MediaKind) : x.code ≤ 3 := by cases x <;> decide

theorem RequesterName.code_le (x : RequesterName) : x.code ≤ 2 := by cases x <;> decide

theorem ApplySource.code_le (x : ApplySource) : x.code ≤ 2 := by cases x <;> decide

theorem ApplyOutcome.code_le (x : ApplyOutcome) : x.code ≤ 4 := by cases x <;> decide

theorem RecordedCause.code_le (x : RecordedCause) : x.code ≤ 2 := by cases x <;> decide

theorem OpKind.code_le (x : OpKind) : x.code ≤ 2 := by cases x <;> decide

theorem GaugeState.code_eq (x : GaugeState) : x.code = (decide (x = .valid)).toNat := by cases x <;> rfl

theorem WriteKind.code_eq (x : WriteKind) : x.code = (decide (x = .erase)).toNat := by cases x <;> rfl

theorem OfflineCause.code_eq (x : OfflineCause) : x.code = (decide (x = .noAnswer)).toNat := by cases x <;> rfl

/-- The origin's byte is its window's number, or 0x80 for ABSOLUTE. -/
theorem Origin.code_mod (x : Origin) : x.code % 256 = (match x with | .window n => n % 256 | .absolute => 0x80) := by
  cases x <;> rfl

/-! ### The packed byte of each kind -/

section Marks

variable {bytes : List Byte} {c : Nat}

/-- The bits of START's offset 6 that no field takes: bit 7, and those of an absent field (log entry 9). -/
def StartRecord.openMarks (x : StartRecord) : Byte :=
  0x80#8 ||| (if x.rows.isSome then 0#8 else 0x20#8) ||| (if x.drained.isSome then 0#8 else 0x40#8)

theorem StartRecord.openMarks_clear (x : StartRecord) :
    (∀ i, i < 5 → x.openMarks.getLsbD i = false) ∧ (x.rows.isSome → x.openMarks.getLsbD 5 = false) ∧
      (x.drained.isSome → x.openMarks.getLsbD 6 = false) := by
  unfold StartRecord.openMarks
  cases x.rows.isSome <;> cases x.drained.isSome <;> decide

theorem StartRecord.marks_spec (x : StartRecord) (h : bytes[c]? = some (packed .startMarks x.openMarks
      (flagBit 0 x.answering.die0 + flagBit 1 x.answering.die1 + flagBit 2 x.answering.die2 +
        flagBit 3 x.answering.die3 + flagBit 4 x.noteFault + flagBit 5 (x.rows.any RowsLoaded.overflow) +
        flagBit 6 (x.drained.any LineResetCounts.withdrawn)))) :
    let marks := bytes.getD c 0
    marks.getLsbD 0 = x.answering.die0 ∧ marks.getLsbD 1 = x.answering.die1 ∧ marks.getLsbD 2 = x.answering.die2 ∧
      marks.getLsbD 3 = x.answering.die3 ∧ marks.getLsbD 4 = x.noteFault ∧
      (∀ y, x.rows = some y → marks.getLsbD 5 = y.overflow) ∧
      (∀ y, x.drained = some y → marks.getLsbD 6 = y.withdrawn) := by
  obtain ⟨low, rows, drained⟩ := x.openMarks_clear
  obtain ⟨bit0, bit1, bit2, bit3, bit4, bit5, bit6⟩ := sevenFlags_getLsbD x.answering.die0 x.answering.die1
    x.answering.die2 x.answering.die3 x.noteFault (x.rows.any RowsLoaded.overflow)
    (x.drained.any LineResetCounts.withdrawn)
  intro marks
  have shown {i : Nat} (hi : x.openMarks.getLsbD i = false) := (congrArg (·.getLsbD i) (getD_of_column h)).trans
    (packed_getLsbD .startMarks hi _)
  refine ⟨(shown (low 0 (by decide))).trans bit0, (shown (low 1 (by decide))).trans bit1,
    (shown (low 2 (by decide))).trans bit2, (shown (low 3 (by decide))).trans bit3,
    (shown (low 4 (by decide))).trans bit4, fun y hy => ?overflow, fun y hy => ?withdrawn⟩
  case overflow => exact (shown (rows (by rw [hy]; rfl))).trans (bit5.trans (by rw [hy]; rfl))
  case withdrawn => exact (shown (drained (by rw [hy]; rfl))).trans (bit6.trans (by rw [hy]; rfl))

theorem DropRecord.marks_spec (x : DropRecord)
    (h : bytes[c]? = some (packed .dropMarks 0xF0#8 (x.kind.code + flagBit 2 x.ceilingMark + flagBit 3 x.powerDip))) :
    bytesField bytes c 1 % 4 = x.kind.code ∧ (bytes.getD c 0).getLsbD 2 = x.ceilingMark ∧
      (bytes.getD c 0).getLsbD 3 = x.powerDip := by
  have low := packed_column h (n := 4) (by decide) (by decide)
  have kind := x.kind.code_le
  have ceiling := Bool.toNat_le x.ceilingMark
  have dip := Bool.toNat_le x.powerDip
  rw [flagBit_eq, flagBit_eq] at low
  exact ⟨by omega, flag_of_digit (by omega), flag_of_digit (by omega)⟩

theorem BatteryRecord.marks_spec (x : BatteryRecord) (h : bytes[c]? = some (packed .batteryMarks 0xE0#8
      (x.state.code + 2 * x.level.code + flagBit 3 x.stale + flagBit 4 x.outOfRange))) :
    (bytes.getD c 0).getLsbD 0 = decide (x.state = .valid) ∧ bytesField bytes c 1 / 2 % 4 = x.level.code ∧
      (bytes.getD c 0).getLsbD 3 = x.stale ∧ (bytes.getD c 0).getLsbD 4 = x.outOfRange := by
  have low := packed_column h (n := 5) (by decide) (by decide)
  have valid := Bool.toNat_le (decide (x.state = .valid))
  have level := x.level.code_le
  have stale := Bool.toNat_le x.stale
  have range := Bool.toNat_le x.outOfRange
  rw [flagBit_eq, flagBit_eq, GaugeState.code_eq] at low
  exact ⟨flag_of_digit (by omega), by omega, flag_of_digit (by omega), flag_of_digit (by omega)⟩

theorem CommitFailRecord.marks_spec (x : CommitFailRecord) (h : bytes[c]? = some (packed .commitFailMarks 0xE0#8
      (x.kind.code + 2 * x.cause.code + flagBit 3 x.awaiting + flagBit 4 x.overflow))) :
    (bytes.getD c 0).getLsbD 0 = decide (x.kind = .erase) ∧ bytesField bytes c 1 / 2 % 4 = x.cause.code ∧
      (bytes.getD c 0).getLsbD 3 = x.awaiting ∧ (bytes.getD c 0).getLsbD 4 = x.overflow := by
  have low := packed_column h (n := 5) (by decide) (by decide)
  have erase := Bool.toNat_le (decide (x.kind = .erase))
  have cause := x.cause.code_le
  have awaiting := Bool.toNat_le x.awaiting
  have overflow := Bool.toNat_le x.overflow
  rw [flagBit_eq, flagBit_eq, WriteKind.code_eq] at low
  exact ⟨flag_of_digit (by omega), by omega, flag_of_digit (by omega), flag_of_digit (by omega)⟩

theorem DieOfflineRecord.marks_spec (x : DieOfflineRecord) (h : bytes[c]? = some (packed .dieOfflineMarks 0x80#8
      (x.die.val + 4 * x.cause.code + 8 * x.operation.code + 32 * x.requester.code))) :
    bytesField bytes c 1 % 4 = x.die.val ∧ (bytes.getD c 0).getLsbD 2 = decide (x.cause = .noAnswer) ∧
      bytesField bytes c 1 / 8 % 4 = x.operation.code ∧ bytesField bytes c 1 / 32 % 4 = x.requester.code := by
  have low := packed_column h (n := 7) (by decide) (by decide)
  have die := x.die.isLt
  have noAnswer := Bool.toNat_le (decide (x.cause = .noAnswer))
  have operation := x.operation.code_le
  have requester := x.requester.code_le
  rw [OfflineCause.code_eq] at low
  exact ⟨by omega, flag_of_digit (by omega), by omega, by omega⟩

theorem ProfileRecord.marks_spec (x : ProfileRecord)
    (h : bytes[c]? = some (packed .profileMarks (if x.reason.isSome then 0#8 else 0x80#8)
      (x.source.code + 4 * x.outcome.code + flagBit 5 x.clamped + flagBit 6 x.pending +
        flagBit 7 (decide (x.reason = some .table))))) :
    bytesField bytes c 1 % 4 = x.source.code ∧ bytesField bytes c 1 / 4 % 8 = x.outcome.code ∧
      (bytes.getD c 0).getLsbD 5 = x.clamped ∧ (bytes.getD c 0).getLsbD 6 = x.pending ∧
      ∀ y, x.reason = some y → (bytes.getD c 0).getLsbD 7 = decide (y = .table) := by
  have low := packed_column h (n := 7) (by decide) (by split <;> rfl)
  have source := x.source.code_le
  have outcome := x.outcome.code_le
  have clamped := Bool.toNat_le x.clamped
  have pending := Bool.toNat_le x.pending
  have table := Bool.toNat_le (decide (x.reason = some .table))
  simp only [flagBit_eq] at low h
  refine ⟨by omega, by omega, flag_of_digit (by omega), flag_of_digit (by omega), fun y hy => ?_⟩
  simp only [hy, Option.isSome_some, if_true, Option.some.injEq] at h table
  have all := packed_column h (n := 8) le_rfl rfl
  have inByte : bytesField bytes c 1 < 256 := by rw [bytesField_one]; exact (bytes.getD c 0#8).isLt
  exact flag_of_digit (by omega)

theorem RefusalRecord.marks_spec (x : RefusalRecord) (h : bytes[c]? = some (packed .refusalMarks 0x80#8
      (x.cause.code + 4 * x.firstOp.code + flagBit 4 x.firstAbsolute + 32 * x.lastOp.code))) :
    bytesField bytes c 1 % 4 = x.cause.code ∧ bytesField bytes c 1 / 4 % 4 = x.firstOp.code ∧
      (bytes.getD c 0).getLsbD 4 = x.firstAbsolute ∧ bytesField bytes c 1 / 32 % 4 = x.lastOp.code := by
  have low := packed_column h (n := 7) (by decide) (by decide)
  have cause := x.cause.code_le
  have firstOp := x.firstOp.code_le
  have absolute := Bool.toNat_le x.firstAbsolute
  have lastOp := x.lastOp.code_le
  rw [flagBit_eq] at low
  exact ⟨by omega, by omega, flag_of_digit (by omega), by omega⟩

/-- The two bytes of the rejection mask: bit w for window w, and none for 14 and 15 (R179). -/
theorem rejectionMask_spec {rejected : List Nat} (h0 : bytes[c]? = some (BitVec.ofNat 8 (rejectionMask rejected)))
    (h1 : bytes[c + 1]? = some (BitVec.ofNat 8 (rejectionMask rejected / 256))) {w : Nat} (hw : w < 16) :
    (bytes.getD (c + w / 8) 0).getLsbD (w % 8) = true ↔ w < 14 ∧ w ∈ rejected := by
  obtain ⟨-, bits⟩ := flagSum_testBit rejected.contains 14
  have shown : (bytes.getD (c + w / 8) 0).getLsbD (w % 8) = (rejectionMask rejected).testBit w := by
    rcases Nat.lt_or_ge w 8 with first | second
    · rw [Nat.div_eq_of_lt first, Nat.mod_eq_of_lt first, Nat.add_zero, getD_of_column h0, BitVec.getLsbD_ofNat]
      simp [first]
    · obtain ⟨k, rfl⟩ := Nat.exists_eq_add_of_le second
      have inByte : k < 8 := by omega
      rw [show (8 + k) / 8 = 1 by omega, show (8 + k) % 8 = k by omega, getD_of_column h1, BitVec.getLsbD_ofNat,
        show 256 = 2 ^ 8 from rfl, Nat.testBit_div_two_pow, Nat.add_comm k 8]
      simp [inByte]
  rw [shown, rejectionMask, bits, Bool.and_eq_true, decide_eq_true_iff, List.contains_iff_mem]

end Marks

/-! ### A record's header and the columns of its payload -/

/-- The presence flags stand above the three bits of the kind code. -/
theorem headerByte_flags {code : Nat} (h : code < 8) (f0 f1 f2 f3 f4 : Bool) :
    let header := headerByte code f0 f1 f2 f3 f4
    header.getLsbD 3 = f0 ∧ header.getLsbD 4 = f1 ∧ header.getLsbD 5 = f2 ∧ header.getLsbD 6 = f3 ∧
      header.getLsbD 7 = f4 := by
  revert f0 f1 f2 f3 f4
  interval_cases code <;> decide

theorem Record.holdsAt_stamp (r : Record) : HoldsAt r.bytes 1 (leBytes 4 r.stamp.toNat ++ r.parts.2) :=
  fun k _ => by rw [Record.bytes, Nat.add_comm 1 k, List.getElem?_cons_succ]

/-- The presence flags of a record, and its payload from column 5 on. -/
theorem Record.columns {r : Record} {code : Nat} {f0 f1 f2 f3 f4 : Bool} {payload : List Byte}
    (h : r.parts = (headerByte code f0 f1 f2 f3 f4, payload)) (hc : code < 8) :
    let header := r.bytes.getD 0 0
    (header.getLsbD 3 = f0 ∧ header.getLsbD 4 = f1 ∧ header.getLsbD 5 = f2 ∧ header.getLsbD 6 = f3 ∧
      header.getLsbD 7 = f4) ∧ HoldsAt r.bytes 5 payload := by
  have first : r.bytes.getD 0 0 = headerByte code f0 f1 f2 f3 f4 := congrArg Prod.fst h
  have payloadAt := ((holdsAt_append _ _).1 r.holdsAt_stamp).2
  rw [leBytes_length, h] at payloadAt
  exact ⟨first ▸ headerByte_flags hc f0 f1 f2 f3 f4, payloadAt⟩

theorem Record.bytes_stamp (r : Record) : bytesField r.bytes 1 4 = r.stamp.toNat :=
  ((holdsAt_append _ _).1 r.holdsAt_stamp).1.tick

theorem Record.bytes_code (r : Record) : bytesField r.bytes 0 1 % 8 = r.payload.code := by
  rw [bytesField_one]
  exact r.bytes_spec.2.1

/-! ### The obligation -/

/-- Settles O48: each field of a kind is read at the column that the widths of the fields before it give. -/
theorem recordsShowTheirFields : Obligations.RecordsShowTheirFields := by
  intro r b flags bit shown unused
  have blankRest {c n : Nat} (h : HoldsAt b c (blankBytes n)) (hn : c + n = 32) : unused c :=
    fun x hc hx => h.blank hc (hn ▸ hx)
  refine ⟨r.bytes_spec.1, r.bytes_stamp, r.bytes_code, fun x h => ?start, fun x h => ?drop, fun x h => ?battery,
    fun x h => ?commitFail, fun x h => ?dieOffline, fun x h => ?profile, fun x h => ?refusal,
    fun drop highSince ceilingMs h => ?suspended, fun since h => ?resumed⟩
  case start =>
    obtain ⟨present, columns⟩ := Record.columns (show r.parts = x.bytes by rw [Record.parts, h]) (by decide)
    simp at columns
    obtain ⟨cause, marks, notePage, committed, failed, lost, flushNote, rows, drained, drainFailed, eventTick, rest⟩ :=
      columns
    obtain ⟨die0, die1, die2, die3, noteFault, overflow, withdrawn⟩ := x.marks_spec marks
    exact ⟨present, code_of_column cause x.cause.code_le, die0, die1, die2, die3, noteFault, overflow, withdrawn,
      notePage.optional, committed.optional, failed.optional, lost.optional,
      code_of_column flushNote (flushNoteCode_le x.flushNote), rows.optional, drained.optional, drainFailed.optional,
      eventTick.optional, blankRest rest rfl⟩
  case drop =>
    obtain ⟨present, columns⟩ := Record.columns (show r.parts = x.bytes by rw [Record.parts, h]) (by decide)
    simp at columns
    obtain ⟨number, openTick, closeTick, span, height, width, airborne, onsets, falls, impacts, posted, awaiting, failed,
      marks⟩ := columns
    exact ⟨present, number.tick, openTick.tick, closeTick.tick, span.optional, height.optional, width.optional,
      airborne.count (by decide), onsets.count (by decide), falls.count (by decide), impacts.count (by decide),
      posted.count (by decide), awaiting.count (by decide), failed.count (by decide), x.marks_spec marks⟩
  case battery =>
    obtain ⟨present, columns⟩ := Record.columns (show r.parts = x.bytes by rw [Record.parts, h]) (by decide)
    simp at columns
    obtain ⟨reason, marks, soc, temperature, remaining, learned, minutes, factor, rest⟩ := columns
    obtain ⟨valid, level, stale, outOfRange⟩ := x.marks_spec marks
    exact ⟨present, code_of_column reason x.reason.code_le, valid, level, stale, outOfRange, soc.optional,
      getD_of_column temperature, remaining.optional, learned.number, minutes.optional, factor.number,
      blankRest rest rfl⟩
  case commitFail =>
    obtain ⟨present, columns⟩ := Record.columns (show r.parts = x.bytes by rw [Record.parts, h]) (by decide)
    simp at columns
    obtain ⟨marks, origin, block, page, dropTag, acceptTick, rest⟩ := columns
    obtain ⟨erase, cause, awaiting, overflow⟩ := x.marks_spec marks
    exact ⟨present, erase, cause, awaiting, overflow, (byte_of_column origin).trans x.origin.code_mod, block.number,
      page.optional, dropTag.optional, acceptTick.tick, blankRest rest rfl⟩
  case dieOffline =>
    obtain ⟨present, columns⟩ := Record.columns (show r.parts = x.bytes by rw [Record.parts, h]) (by decide)
    simp at columns
    obtain ⟨marks, block, page, busyStart, timeout, rest⟩ := columns
    obtain ⟨die, cause, operation, requester⟩ := x.marks_spec marks
    exact ⟨present, die, cause, operation, requester, block.optional, page.optional, busyStart.tick, timeout.number,
      blankRest rest rfl⟩
  case profile =>
    obtain ⟨present, columns⟩ := Record.columns (show r.parts = x.bytes by rw [Record.parts, h]) (by decide)
    simp at columns
    obtain ⟨marks, page, generation, mask, maskHigh, pagesFailed, rest⟩ := columns
    obtain ⟨source, outcome, clamped, pending, reason⟩ := x.marks_spec marks
    exact ⟨present, source, outcome, clamped, pending, reason, page.optional, generation.optional,
      fun w hw => rejectionMask_spec mask maskHigh hw, pagesFailed.optional, blankRest rest rfl⟩
  case refusal =>
    intro code
    obtain ⟨present, columns⟩ := Record.columns (show r.parts = x.bytes r.count by rw [Record.parts, h]) (by decide)
    simp at columns
    obtain ⟨marks, firstRow, lastRow, lastTick, count, rest⟩ := columns
    obtain ⟨cause, firstOp, absolute, lastOp⟩ := x.marks_spec marks
    exact ⟨present, cause, firstOp, absolute, lastOp, firstRow.whole x.firstRow.isLt, lastRow.whole x.lastRow.isLt,
      lastTick.tick, count.number, blankRest rest rfl⟩
  case suspended =>
    obtain ⟨present, columns⟩ := Record.columns
      (show r.parts = (SensorRecord.suspended drop highSince ceilingMs).bytes by rw [Record.parts, h]) (by decide)
    simp at columns
    obtain ⟨marks, number, high, ceiling, noSince, rest⟩ := columns
    exact ⟨present, packed_column marks (n := 3) (by decide) (by decide), number.tick, high.optional, ceiling.number,
      blankRest (noSince.blank_append rest) rfl⟩
  case resumed =>
    obtain ⟨present, columns⟩ := Record.columns
      (show r.parts = (SensorRecord.resumed since).bytes by rw [Record.parts, h]) (by decide)
    simp at columns
    obtain ⟨marks, noDrop, noHigh, noCeiling, since, rest⟩ := columns
    refine ⟨present, packed_column marks (n := 3) (by decide) (by decide), since.tick, fun c h6 h32 apart => ?_⟩
    rcases apart with before | after
    · exact ((noDrop.blank_append noHigh).blank_append noCeiling).blank h6 before
    · exact rest.blank after h32

end Sys2Proof.Machine
end
